-- ==== Sys2Proof/Word.lean ====
section
/-! DEFINITION. The widths of the machine (spec 00_scope.md R6, R8): a register, an address and a memory word have
32 bits, a memory byte 8, a register number 5. -/

namespace Sys2Proof

/-- A 32-bit word: the contents of a general register, of `HI`, of `LO`, of the `pc`; an address (R6). -/
abbrev Word := BitVec 32

/-- A halfword, 16 bits (R13). -/
abbrev Half := BitVec 16

/-- A byte of memory (R60). -/
abbrev Byte := BitVec 8

/-- A doubleword, 64 bits: a double in a pair of floating-point registers (R31), a product (R28). -/
abbrev Dword := BitVec 64

/-- The number of a general, floating-point or control register, as a 5-bit field of an encoding (R108). -/
abbrev RegNum := BitVec 5

end Sys2Proof
end

