-- ==== Sys2Proof/Syntax.lean ====
section
/-! DEFINITION. The instructions: one constructor for each of the 146 rows of spec/opcode_table.json (30_encoding.md
R115), its operands in the order of the assembler syntax of R122. A constructor holds exactly the bits of its encoding
that are not fixed: register numbers, `shamt`, `imm`, `address`, and the `code`, `op` and `hint` fields that R119 leaves
free. `fd`, `fs`, `ft` number floating-point registers; `rd`, `rs`, `rt` number general registers, except that `rd` of
`mfc0` and `mtc0` numbers a control register and `rt` of the coprocessor-2 forms a register of that coprocessor (R108).
The suffixes `S`, `D`, `W` stand for the `.s`, `.d`, `.w` of the mnemonics; `brk` is `break`. -/

namespace Sys2Proof

/-- An instruction of the machine, decoded. -/
inductive Instr where
  -- Integer arithmetic, logic, shifts, compare, conditional move (40_integer_alu.md)
  /-- `add`, R141. -/
  | add (rd rs rt : RegNum)
  /-- `addi`, R142. -/
  | addi (rt rs : RegNum) (imm : Half)
  /-- `addiu`, R143. -/
  | addiu (rt rs : RegNum) (imm : Half)
  /-- `addu`, R144. -/
  | addu (rd rs rt : RegNum)
  /-- `and`, R145. -/
  | and (rd rs rt : RegNum)
  /-- `andi`, R146. -/
  | andi (rt rs : RegNum) (imm : Half)
  /-- `lui`, R147. -/
  | lui (rt : RegNum) (imm : Half)
  /-- `nor`, R148. -/
  | nor (rd rs rt : RegNum)
  /-- `or`, R149. -/
  | or (rd rs rt : RegNum)
  /-- `ori`, R150. -/
  | ori (rt rs : RegNum) (imm : Half)
  /-- `slt`, R151. -/
  | slt (rd rs rt : RegNum)
  /-- `slti`, R152. -/
  | slti (rt rs : RegNum) (imm : Half)
  /-- `sltiu`, R153. -/
  | sltiu (rt rs : RegNum) (imm : Half)
  /-- `sltu`, R154. -/
  | sltu (rd rs rt : RegNum)
  /-- `sll`, R155. -/
  | sll (rd rt : RegNum) (shamt : BitVec 5)
  /-- `srl`, R156. -/
  | srl (rd rt : RegNum) (shamt : BitVec 5)
  /-- `sub`, R157. -/
  | sub (rd rs rt : RegNum)
  /-- `subu`, R158. -/
  | subu (rd rs rt : RegNum)
  /-- `sra`, R159. -/
  | sra (rd rt : RegNum) (shamt : BitVec 5)
  /-- `xor`, R160. -/
  | xor (rd rs rt : RegNum)
  /-- `xori`, R161. -/
  | xori (rt rs : RegNum) (imm : Half)
  /-- `sllv`, R162. -/
  | sllv (rd rt rs : RegNum)
  /-- `srlv`, R163. -/
  | srlv (rd rt rs : RegNum)
  /-- `srav`, R164. -/
  | srav (rd rt rs : RegNum)
  /-- `movz`, R165. -/
  | movz (rd rs rt : RegNum)
  /-- `movn`, R166. -/
  | movn (rd rs rt : RegNum)
  -- Control transfer (41_control_transfer.md)
  /-- `beq`, R182. -/
  | beq (rs rt : RegNum) (imm : Half)
  /-- `bne`, R183. -/
  | bne (rs rt : RegNum) (imm : Half)
  /-- `j`, R184. -/
  | j (address : BitVec 26)
  /-- `jal`, R185. -/
  | jal (address : BitVec 26)
  /-- `jr`, R186. -/
  | jr (rs : RegNum)
  /-- `blez`, R187. -/
  | blez (rs : RegNum) (imm : Half)
  /-- `bgtz`, R188. -/
  | bgtz (rs : RegNum) (imm : Half)
  /-- `jalr`, R189. -/
  | jalr (rd rs : RegNum)
  -- Integer loads and stores (42_load_store.md)
  /-- `lbu`, R201. -/
  | lbu (rt rs : RegNum) (imm : Half)
  /-- `lhu`, R202. -/
  | lhu (rt rs : RegNum) (imm : Half)
  /-- `ll`, R203. -/
  | ll (rt rs : RegNum) (imm : Half)
  /-- `lw`, R204. -/
  | lw (rt rs : RegNum) (imm : Half)
  /-- `sb`, R205. -/
  | sb (rt rs : RegNum) (imm : Half)
  /-- `sc`, R206. -/
  | sc (rt rs : RegNum) (imm : Half)
  /-- `sh`, R207. -/
  | sh (rt rs : RegNum) (imm : Half)
  /-- `sw`, R208. -/
  | sw (rt rs : RegNum) (imm : Half)
  /-- `lb`, R209. -/
  | lb (rt rs : RegNum) (imm : Half)
  /-- `lh`, R210. -/
  | lh (rt rs : RegNum) (imm : Half)
  /-- `lwl`, R211. -/
  | lwl (rt rs : RegNum) (imm : Half)
  /-- `lwr`, R212. -/
  | lwr (rt rs : RegNum) (imm : Half)
  /-- `swl`, R213. -/
  | swl (rt rs : RegNum) (imm : Half)
  /-- `swr`, R214. -/
  | swr (rt rs : RegNum) (imm : Half)
  -- Multiply, divide, HI and LO (43_muldiv_hilo.md)
  /-- `div`, R231. -/
  | div (rs rt : RegNum)
  /-- `divu`, R232. -/
  | divu (rs rt : RegNum)
  /-- `mfhi`, R233. -/
  | mfhi (rd : RegNum)
  /-- `mflo`, R234. -/
  | mflo (rd : RegNum)
  /-- `mult`, R235. -/
  | mult (rs rt : RegNum)
  /-- `multu`, R236. -/
  | multu (rs rt : RegNum)
  /-- `mthi`, R237. -/
  | mthi (rs : RegNum)
  /-- `mtlo`, R238. -/
  | mtlo (rs : RegNum)
  -- Floating point, coprocessor 1 (44_floating_point.md)
  /-- `add.s`, R255. -/
  | addS (fd fs ft : RegNum)
  /-- `add.d`, R256. -/
  | addD (fd fs ft : RegNum)
  /-- `sub.s`, R257. -/
  | subS (fd fs ft : RegNum)
  /-- `sub.d`, R258. -/
  | subD (fd fs ft : RegNum)
  /-- `mul.s`, R259. -/
  | mulS (fd fs ft : RegNum)
  /-- `mul.d`, R260. -/
  | mulD (fd fs ft : RegNum)
  /-- `div.s`, R261. -/
  | divS (fd fs ft : RegNum)
  /-- `div.d`, R262. -/
  | divD (fd fs ft : RegNum)
  /-- `sqrt.s`, R263. -/
  | sqrtS (fd fs : RegNum)
  /-- `sqrt.d`, R264. -/
  | sqrtD (fd fs : RegNum)
  /-- `abs.s`, R265. -/
  | absS (fd fs : RegNum)
  /-- `abs.d`, R266. -/
  | absD (fd fs : RegNum)
  /-- `mov.s`, R267. -/
  | movS (fd fs : RegNum)
  /-- `mov.d`, R268. -/
  | movD (fd fs : RegNum)
  /-- `neg.s`, R269. -/
  | negS (fd fs : RegNum)
  /-- `neg.d`, R270. -/
  | negD (fd fs : RegNum)
  /-- `round.w.s`, R271. -/
  | roundWS (fd fs : RegNum)
  /-- `round.w.d`, R272. -/
  | roundWD (fd fs : RegNum)
  /-- `trunc.w.s`, R273. -/
  | truncWS (fd fs : RegNum)
  /-- `trunc.w.d`, R274. -/
  | truncWD (fd fs : RegNum)
  /-- `ceil.w.s`, R275. -/
  | ceilWS (fd fs : RegNum)
  /-- `ceil.w.d`, R276. -/
  | ceilWD (fd fs : RegNum)
  /-- `floor.w.s`, R277. -/
  | floorWS (fd fs : RegNum)
  /-- `floor.w.d`, R278. -/
  | floorWD (fd fs : RegNum)
  /-- `movz.s`, R279. -/
  | movzS (fd fs rt : RegNum)
  /-- `movz.d`, R280. -/
  | movzD (fd fs rt : RegNum)
  /-- `movn.s`, R281. -/
  | movnS (fd fs rt : RegNum)
  /-- `movn.d`, R282. -/
  | movnD (fd fs rt : RegNum)
  /-- `cvt.s.d`, R283. -/
  | cvtSD (fd fs : RegNum)
  /-- `cvt.d.s`, R284. -/
  | cvtDS (fd fs : RegNum)
  /-- `cvt.w.s`, R285. -/
  | cvtWS (fd fs : RegNum)
  /-- `cvt.w.d`, R286. -/
  | cvtWD (fd fs : RegNum)
  /-- `cvt.s.s`, R287. -/
  | cvtSS (fd fs : RegNum)
  /-- `cvt.d.d`, R288. -/
  | cvtDD (fd fs : RegNum)
  /-- `c.f.s`, R290. -/
  | cFS (fs ft : RegNum)
  /-- `c.f.d`, R291. -/
  | cFD (fs ft : RegNum)
  /-- `c.un.s`, R292. -/
  | cUnS (fs ft : RegNum)
  /-- `c.un.d`, R293. -/
  | cUnD (fs ft : RegNum)
  /-- `c.eq.s`, R294. -/
  | cEqS (fs ft : RegNum)
  /-- `c.eq.d`, R295. -/
  | cEqD (fs ft : RegNum)
  /-- `c.ueq.s`, R296. -/
  | cUeqS (fs ft : RegNum)
  /-- `c.ueq.d`, R297. -/
  | cUeqD (fs ft : RegNum)
  /-- `c.olt.s`, R298. -/
  | cOltS (fs ft : RegNum)
  /-- `c.olt.d`, R299. -/
  | cOltD (fs ft : RegNum)
  /-- `c.ult.s`, R300. -/
  | cUltS (fs ft : RegNum)
  /-- `c.ult.d`, R301. -/
  | cUltD (fs ft : RegNum)
  /-- `c.ole.s`, R302. -/
  | cOleS (fs ft : RegNum)
  /-- `c.ole.d`, R303. -/
  | cOleD (fs ft : RegNum)
  /-- `c.ule.s`, R304. -/
  | cUleS (fs ft : RegNum)
  /-- `c.ule.d`, R305. -/
  | cUleD (fs ft : RegNum)
  /-- `c.sf.s`, R306. -/
  | cSfS (fs ft : RegNum)
  /-- `c.sf.d`, R307. -/
  | cSfD (fs ft : RegNum)
  /-- `c.ngle.s`, R308. -/
  | cNgleS (fs ft : RegNum)
  /-- `c.ngle.d`, R309. -/
  | cNgleD (fs ft : RegNum)
  /-- `c.seq.s`, R310. -/
  | cSeqS (fs ft : RegNum)
  /-- `c.seq.d`, R311. -/
  | cSeqD (fs ft : RegNum)
  /-- `c.ngl.s`, R312. -/
  | cNglS (fs ft : RegNum)
  /-- `c.ngl.d`, R313. -/
  | cNglD (fs ft : RegNum)
  /-- `c.lt.s`, R314. -/
  | cLtS (fs ft : RegNum)
  /-- `c.lt.d`, R315. -/
  | cLtD (fs ft : RegNum)
  /-- `c.nge.s`, R316. -/
  | cNgeS (fs ft : RegNum)
  /-- `c.nge.d`, R317. -/
  | cNgeD (fs ft : RegNum)
  /-- `c.le.s`, R318. -/
  | cLeS (fs ft : RegNum)
  /-- `c.le.d`, R319. -/
  | cLeD (fs ft : RegNum)
  /-- `c.ngt.s`, R320. -/
  | cNgtS (fs ft : RegNum)
  /-- `c.ngt.d`, R321. -/
  | cNgtD (fs ft : RegNum)
  /-- `lwc1`, R323. -/
  | lwc1 (ft rs : RegNum) (imm : Half)
  /-- `ldc1`, R324. -/
  | ldc1 (ft rs : RegNum) (imm : Half)
  /-- `swc1`, R325. -/
  | swc1 (ft rs : RegNum) (imm : Half)
  /-- `sdc1`, R326. -/
  | sdc1 (ft rs : RegNum) (imm : Half)
  /-- `bc1t`, R327. -/
  | bc1t (imm : Half)
  /-- `bc1f`, R328. -/
  | bc1f (imm : Half)
  -- System, coprocessor 0, traps, cache, coprocessor 2 (45_system_coprocessor.md)
  /-- `mfc0`, R330. -/
  | mfc0 (rt rd : RegNum)
  /-- `mtc0`, R331. -/
  | mtc0 (rt rd : RegNum)
  /-- `eret`, R332. -/
  | eret
  /-- `syscall`, R333. -/
  | syscall (code : BitVec 20)
  /-- `break`, R334. -/
  | brk (code : BitVec 20)
  /-- `sync`, R335. -/
  | sync
  /-- `tge`, R336. -/
  | tge (rs rt : RegNum) (code : BitVec 10)
  /-- `tgeu`, R337. -/
  | tgeu (rs rt : RegNum) (code : BitVec 10)
  /-- `tlt`, R338. -/
  | tlt (rs rt : RegNum) (code : BitVec 10)
  /-- `tltu`, R339. -/
  | tltu (rs rt : RegNum) (code : BitVec 10)
  /-- `teq`, R340. -/
  | teq (rs rt : RegNum) (code : BitVec 10)
  /-- `tne`, R341. -/
  | tne (rs rt : RegNum) (code : BitVec 10)
  /-- `cache`, R343. -/
  | cache (op : BitVec 5) (rs : RegNum) (imm : Half)
  /-- `pref`, R344. -/
  | pref (hint : BitVec 5) (rs : RegNum) (imm : Half)
  /-- `lwc2`, R346. -/
  | lwc2 (rt rs : RegNum) (imm : Half)
  /-- `ldc2`, R347. -/
  | ldc2 (rt rs : RegNum) (imm : Half)
  /-- `swc2`, R348. -/
  | swc2 (rt rs : RegNum) (imm : Half)
  /-- `sdc2`, R349. -/
  | sdc2 (rt rs : RegNum) (imm : Half)
  deriving DecidableEq, Repr

end Sys2Proof
end

