-- ==== Sys2Proof/WellFormed.lean ====
section
/-! DEFINITION. Well-formed instructions: the conditions the spec puts on operands beyond the encoding. Three checks:
a register number that names a double is even (10_state.md R31, 44_floating_point.md R254); `jalr` does not name one
register twice unless it is register 0 (41_control_transfer.md R189); `mfc0` and `mtc0` name a control register that
exists (10_state.md R39). -/

namespace Sys2Proof

/-- The register number is even: it may name the pair `f[n], f[n+1]` (R31). -/
def evenReg (n : RegNum) : Bool := !n.getLsbD 0

/-- The link register of `jalr` is not its target register, or is register 0 (R189). -/
def linkAllowed (rd rs : RegNum) : Bool := rd != rs || rd == 0#5

/-- The control registers the spec describes: BadVAddr 8, Status 12, Cause 13, EPC 14 (R34, R39). -/
def controlRegister (n : RegNum) : Bool := n == 8#5 || n == 12#5 || n == 13#5 || n == 14#5

/-- The instruction passes every check the spec makes on its operands. -/
def wellFormed (i : Instr) : Bool :=
  match i with
  | .add _ _ _ => true
  | .addi _ _ _ => true
  | .addiu _ _ _ => true
  | .addu _ _ _ => true
  | .and _ _ _ => true
  | .andi _ _ _ => true
  | .lui _ _ => true
  | .nor _ _ _ => true
  | .or _ _ _ => true
  | .ori _ _ _ => true
  | .slt _ _ _ => true
  | .slti _ _ _ => true
  | .sltiu _ _ _ => true
  | .sltu _ _ _ => true
  | .sll _ _ _ => true
  | .srl _ _ _ => true
  | .sub _ _ _ => true
  | .subu _ _ _ => true
  | .sra _ _ _ => true
  | .xor _ _ _ => true
  | .xori _ _ _ => true
  | .sllv _ _ _ => true
  | .srlv _ _ _ => true
  | .srav _ _ _ => true
  | .movz _ _ _ => true
  | .movn _ _ _ => true
  | .beq _ _ _ => true
  | .bne _ _ _ => true
  | .j _ => true
  | .jal _ => true
  | .jr _ => true
  | .blez _ _ => true
  | .bgtz _ _ => true
  | .jalr rd rs => linkAllowed rd rs
  | .lbu _ _ _ => true
  | .lhu _ _ _ => true
  | .ll _ _ _ => true
  | .lw _ _ _ => true
  | .sb _ _ _ => true
  | .sc _ _ _ => true
  | .sh _ _ _ => true
  | .sw _ _ _ => true
  | .lb _ _ _ => true
  | .lh _ _ _ => true
  | .lwl _ _ _ => true
  | .lwr _ _ _ => true
  | .swl _ _ _ => true
  | .swr _ _ _ => true
  | .div _ _ => true
  | .divu _ _ => true
  | .mfhi _ => true
  | .mflo _ => true
  | .mult _ _ => true
  | .multu _ _ => true
  | .mthi _ => true
  | .mtlo _ => true
  | .addS _ _ _ => true
  | .addD fd fs ft => evenReg fd && evenReg fs && evenReg ft
  | .subS _ _ _ => true
  | .subD fd fs ft => evenReg fd && evenReg fs && evenReg ft
  | .mulS _ _ _ => true
  | .mulD fd fs ft => evenReg fd && evenReg fs && evenReg ft
  | .divS _ _ _ => true
  | .divD fd fs ft => evenReg fd && evenReg fs && evenReg ft
  | .sqrtS _ _ => true
  | .sqrtD fd fs => evenReg fd && evenReg fs
  | .absS _ _ => true
  | .absD fd fs => evenReg fd && evenReg fs
  | .movS _ _ => true
  | .movD fd fs => evenReg fd && evenReg fs
  | .negS _ _ => true
  | .negD fd fs => evenReg fd && evenReg fs
  | .roundWS _ _ => true
  | .roundWD _ fs => evenReg fs
  | .truncWS _ _ => true
  | .truncWD _ fs => evenReg fs
  | .ceilWS _ _ => true
  | .ceilWD _ fs => evenReg fs
  | .floorWS _ _ => true
  | .floorWD _ fs => evenReg fs
  | .movzS _ _ _ => true
  | .movzD fd fs _ => evenReg fd && evenReg fs
  | .movnS _ _ _ => true
  | .movnD fd fs _ => evenReg fd && evenReg fs
  | .cvtSD _ fs => evenReg fs
  | .cvtDS fd _ => evenReg fd
  | .cvtWS _ _ => true
  | .cvtWD _ fs => evenReg fs
  | .cvtSS _ _ => true
  | .cvtDD fd fs => evenReg fd && evenReg fs
  | .cFS _ _ => true
  | .cFD fs ft => evenReg fs && evenReg ft
  | .cUnS _ _ => true
  | .cUnD fs ft => evenReg fs && evenReg ft
  | .cEqS _ _ => true
  | .cEqD fs ft => evenReg fs && evenReg ft
  | .cUeqS _ _ => true
  | .cUeqD fs ft => evenReg fs && evenReg ft
  | .cOltS _ _ => true
  | .cOltD fs ft => evenReg fs && evenReg ft
  | .cUltS _ _ => true
  | .cUltD fs ft => evenReg fs && evenReg ft
  | .cOleS _ _ => true
  | .cOleD fs ft => evenReg fs && evenReg ft
  | .cUleS _ _ => true
  | .cUleD fs ft => evenReg fs && evenReg ft
  | .cSfS _ _ => true
  | .cSfD fs ft => evenReg fs && evenReg ft
  | .cNgleS _ _ => true
  | .cNgleD fs ft => evenReg fs && evenReg ft
  | .cSeqS _ _ => true
  | .cSeqD fs ft => evenReg fs && evenReg ft
  | .cNglS _ _ => true
  | .cNglD fs ft => evenReg fs && evenReg ft
  | .cLtS _ _ => true
  | .cLtD fs ft => evenReg fs && evenReg ft
  | .cNgeS _ _ => true
  | .cNgeD fs ft => evenReg fs && evenReg ft
  | .cLeS _ _ => true
  | .cLeD fs ft => evenReg fs && evenReg ft
  | .cNgtS _ _ => true
  | .cNgtD fs ft => evenReg fs && evenReg ft
  | .lwc1 _ _ _ => true
  | .ldc1 ft _ _ => evenReg ft
  | .swc1 _ _ _ => true
  | .sdc1 ft _ _ => evenReg ft
  | .bc1t _ => true
  | .bc1f _ => true
  | .mfc0 _ rd => controlRegister rd
  | .mtc0 _ rd => controlRegister rd
  | .eret => true
  | .syscall _ => true
  | .brk _ => true
  | .sync => true
  | .tge _ _ _ => true
  | .tgeu _ _ _ => true
  | .tlt _ _ _ => true
  | .tltu _ _ _ => true
  | .teq _ _ _ => true
  | .tne _ _ _ => true
  | .cache _ _ _ => true
  | .pref _ _ _ => true
  | .lwc2 _ _ _ => true
  | .ldc2 _ _ _ => true
  | .swc2 _ _ _ => true
  | .sdc2 _ _ _ => true

end Sys2Proof
end

