-- ==== Sys2Proof/Decode.lean ====
section
/-! DEFINITION. Decoding a word, by the procedure of 30_encoding.md R116 over the maps R110 to R114, and the encoder,
from the same tables. Decoding is total: a word whose selector the maps leave blank is `unassigned` (R118), a word of an
assigned selector with a non-zero must-be-zero field is `mustBeZero` (R119). -/

namespace Sys2Proof

/-- What a word decodes to (R116). -/
inductive Decoded where
  /-- an instruction of the table -/
  | instr (i : Instr)
  /-- the selector is not assigned: an empty, unreadable or missing cell of the maps (R118) -/
  | unassigned
  /-- the selector is assigned and a field the instruction does not use is not zero (R119) -/
  | mustBeZero
  deriving DecidableEq, Repr

/-! ### The fields of a word (R101 to R105) -/

/-- bits 31:26, the opcode -/
def opcodeField (w : Word) : BitVec 6 := w.extractLsb' 26 6

/-- bits 25:21: `rs`; `fmt` of a coprocessor-1 word -/
def rsField (w : Word) : BitVec 5 := w.extractLsb' 21 5

/-- bits 20:16: `rt`; `ft` -/
def rtField (w : Word) : BitVec 5 := w.extractLsb' 16 5

/-- bits 15:11: `rd`; `fs` -/
def rdField (w : Word) : BitVec 5 := w.extractLsb' 11 5

/-- bits 10:6: `shamt`; `fd` -/
def shamtField (w : Word) : BitVec 5 := w.extractLsb' 6 5

/-- bits 5:0, the function field -/
def functField (w : Word) : BitVec 6 := w.extractLsb' 0 6

/-- bits 15:0, the immediate -/
def immField (w : Word) : Half := w.extractLsb' 0 16

/-- bits 25:0, the address field of format J -/
def addressField (w : Word) : BitVec 26 := w.extractLsb' 0 26

/-- bits 25:6, the `code` of `syscall` and `break` -/
def codeField (w : Word) : BitVec 20 := w.extractLsb' 6 20

/-- bits 15:6, the `code` of the traps -/
def trapCodeField (w : Word) : BitVec 10 := w.extractLsb' 6 10

/-- bits 24:6 of a coprocessor-0 operation -/
def coField (w : Word) : BitVec 19 := w.extractLsb' 6 19

/-- `i`, if the must-be-zero fields of its word are zero (R116 step 2, R119). -/
def ifZero (zero : Bool) (i : Instr) : Decoded := if zero then .instr i else .mustBeZero

/-- The funct map of opcode 0 (R111). -/
def decodeSpecial (w : Word) : Decoded :=
  match functField w with
  | 0x00#6 => ifZero (rsField w == 0) (.sll (rdField w) (rtField w) (shamtField w))
  | 0x02#6 => ifZero (rsField w == 0) (.srl (rdField w) (rtField w) (shamtField w))
  | 0x03#6 => ifZero (rsField w == 0) (.sra (rdField w) (rtField w) (shamtField w))
  | 0x04#6 => ifZero (shamtField w == 0) (.sllv (rdField w) (rtField w) (rsField w))
  | 0x06#6 => ifZero (shamtField w == 0) (.srlv (rdField w) (rtField w) (rsField w))
  | 0x07#6 => ifZero (shamtField w == 0) (.srav (rdField w) (rtField w) (rsField w))
  | 0x08#6 => ifZero (rtField w == 0 && rdField w == 0 && shamtField w == 0) (.jr (rsField w))
  | 0x09#6 => ifZero (rtField w == 0 && shamtField w == 0) (.jalr (rdField w) (rsField w))
  | 0x0a#6 => ifZero (shamtField w == 0) (.movz (rdField w) (rsField w) (rtField w))
  | 0x0b#6 => ifZero (shamtField w == 0) (.movn (rdField w) (rsField w) (rtField w))
  | 0x0c#6 => .instr (.syscall (codeField w))
  | 0x0d#6 => .instr (.brk (codeField w))
  | 0x0f#6 => ifZero (rsField w == 0 && rtField w == 0 && rdField w == 0 && shamtField w == 0) .sync
  | 0x10#6 => ifZero (rsField w == 0 && rtField w == 0 && shamtField w == 0) (.mfhi (rdField w))
  | 0x11#6 => ifZero (rtField w == 0 && rdField w == 0 && shamtField w == 0) (.mthi (rsField w))
  | 0x12#6 => ifZero (rsField w == 0 && rtField w == 0 && shamtField w == 0) (.mflo (rdField w))
  | 0x13#6 => ifZero (rtField w == 0 && rdField w == 0 && shamtField w == 0) (.mtlo (rsField w))
  | 0x18#6 => ifZero (rdField w == 0 && shamtField w == 0) (.mult (rsField w) (rtField w))
  | 0x19#6 => ifZero (rdField w == 0 && shamtField w == 0) (.multu (rsField w) (rtField w))
  | 0x1a#6 => ifZero (rdField w == 0 && shamtField w == 0) (.div (rsField w) (rtField w))
  | 0x1b#6 => ifZero (rdField w == 0 && shamtField w == 0) (.divu (rsField w) (rtField w))
  | 0x20#6 => ifZero (shamtField w == 0) (.add (rdField w) (rsField w) (rtField w))
  | 0x21#6 => ifZero (shamtField w == 0) (.addu (rdField w) (rsField w) (rtField w))
  | 0x22#6 => ifZero (shamtField w == 0) (.sub (rdField w) (rsField w) (rtField w))
  | 0x23#6 => ifZero (shamtField w == 0) (.subu (rdField w) (rsField w) (rtField w))
  | 0x24#6 => ifZero (shamtField w == 0) (.and (rdField w) (rsField w) (rtField w))
  | 0x25#6 => ifZero (shamtField w == 0) (.or (rdField w) (rsField w) (rtField w))
  | 0x26#6 => ifZero (shamtField w == 0) (.xor (rdField w) (rsField w) (rtField w))
  | 0x27#6 => ifZero (shamtField w == 0) (.nor (rdField w) (rsField w) (rtField w))
  | 0x2a#6 => ifZero (shamtField w == 0) (.slt (rdField w) (rsField w) (rtField w))
  | 0x2b#6 => ifZero (shamtField w == 0) (.sltu (rdField w) (rsField w) (rtField w))
  | 0x30#6 => .instr (.tge (rsField w) (rtField w) (trapCodeField w))
  | 0x31#6 => .instr (.tgeu (rsField w) (rtField w) (trapCodeField w))
  | 0x32#6 => .instr (.tlt (rsField w) (rtField w) (trapCodeField w))
  | 0x33#6 => .instr (.tltu (rsField w) (rtField w) (trapCodeField w))
  | 0x34#6 => .instr (.teq (rsField w) (rtField w) (trapCodeField w))
  | 0x36#6 => .instr (.tne (rsField w) (rtField w) (trapCodeField w))
  | _ => .unassigned

/-- The funct map of opcode 0x11 with `fmt` 0x10, single precision (R112). -/
def decodeCop1Single (w : Word) : Decoded :=
  match functField w with
  | 0x00#6 => .instr (.addS (shamtField w) (rdField w) (rtField w))
  | 0x01#6 => .instr (.subS (shamtField w) (rdField w) (rtField w))
  | 0x02#6 => .instr (.mulS (shamtField w) (rdField w) (rtField w))
  | 0x03#6 => .instr (.divS (shamtField w) (rdField w) (rtField w))
  | 0x04#6 => ifZero (rtField w == 0) (.sqrtS (shamtField w) (rdField w))
  | 0x05#6 => ifZero (rtField w == 0) (.absS (shamtField w) (rdField w))
  | 0x06#6 => ifZero (rtField w == 0) (.movS (shamtField w) (rdField w))
  | 0x07#6 => ifZero (rtField w == 0) (.negS (shamtField w) (rdField w))
  | 0x0c#6 => ifZero (rtField w == 0) (.roundWS (shamtField w) (rdField w))
  | 0x0d#6 => ifZero (rtField w == 0) (.truncWS (shamtField w) (rdField w))
  | 0x0e#6 => ifZero (rtField w == 0) (.ceilWS (shamtField w) (rdField w))
  | 0x0f#6 => ifZero (rtField w == 0) (.floorWS (shamtField w) (rdField w))
  | 0x12#6 => .instr (.movzS (shamtField w) (rdField w) (rtField w))
  | 0x13#6 => .instr (.movnS (shamtField w) (rdField w) (rtField w))
  | 0x20#6 => ifZero (rtField w == 0) (.cvtSS (shamtField w) (rdField w))
  | 0x21#6 => ifZero (rtField w == 0) (.cvtDS (shamtField w) (rdField w))
  | 0x24#6 => ifZero (rtField w == 0) (.cvtWS (shamtField w) (rdField w))
  | 0x30#6 => ifZero (shamtField w == 0) (.cFS (rdField w) (rtField w))
  | 0x31#6 => ifZero (shamtField w == 0) (.cUnS (rdField w) (rtField w))
  | 0x32#6 => ifZero (shamtField w == 0) (.cEqS (rdField w) (rtField w))
  | 0x33#6 => ifZero (shamtField w == 0) (.cUeqS (rdField w) (rtField w))
  | 0x34#6 => ifZero (shamtField w == 0) (.cOltS (rdField w) (rtField w))
  | 0x35#6 => ifZero (shamtField w == 0) (.cUltS (rdField w) (rtField w))
  | 0x36#6 => ifZero (shamtField w == 0) (.cOleS (rdField w) (rtField w))
  | 0x37#6 => ifZero (shamtField w == 0) (.cUleS (rdField w) (rtField w))
  | 0x38#6 => ifZero (shamtField w == 0) (.cSfS (rdField w) (rtField w))
  | 0x39#6 => ifZero (shamtField w == 0) (.cNgleS (rdField w) (rtField w))
  | 0x3a#6 => ifZero (shamtField w == 0) (.cSeqS (rdField w) (rtField w))
  | 0x3b#6 => ifZero (shamtField w == 0) (.cNglS (rdField w) (rtField w))
  | 0x3c#6 => ifZero (shamtField w == 0) (.cLtS (rdField w) (rtField w))
  | 0x3d#6 => ifZero (shamtField w == 0) (.cNgeS (rdField w) (rtField w))
  | 0x3e#6 => ifZero (shamtField w == 0) (.cLeS (rdField w) (rtField w))
  | 0x3f#6 => ifZero (shamtField w == 0) (.cNgtS (rdField w) (rtField w))
  | _ => .unassigned

/-- The funct map of opcode 0x11 with `fmt` 0x11, double precision (R112). -/
def decodeCop1Double (w : Word) : Decoded :=
  match functField w with
  | 0x00#6 => .instr (.addD (shamtField w) (rdField w) (rtField w))
  | 0x01#6 => .instr (.subD (shamtField w) (rdField w) (rtField w))
  | 0x02#6 => .instr (.mulD (shamtField w) (rdField w) (rtField w))
  | 0x03#6 => .instr (.divD (shamtField w) (rdField w) (rtField w))
  | 0x04#6 => ifZero (rtField w == 0) (.sqrtD (shamtField w) (rdField w))
  | 0x05#6 => ifZero (rtField w == 0) (.absD (shamtField w) (rdField w))
  | 0x06#6 => ifZero (rtField w == 0) (.movD (shamtField w) (rdField w))
  | 0x07#6 => ifZero (rtField w == 0) (.negD (shamtField w) (rdField w))
  | 0x0c#6 => ifZero (rtField w == 0) (.roundWD (shamtField w) (rdField w))
  | 0x0d#6 => ifZero (rtField w == 0) (.truncWD (shamtField w) (rdField w))
  | 0x0e#6 => ifZero (rtField w == 0) (.ceilWD (shamtField w) (rdField w))
  | 0x0f#6 => ifZero (rtField w == 0) (.floorWD (shamtField w) (rdField w))
  | 0x12#6 => .instr (.movzD (shamtField w) (rdField w) (rtField w))
  | 0x13#6 => .instr (.movnD (shamtField w) (rdField w) (rtField w))
  | 0x20#6 => ifZero (rtField w == 0) (.cvtSD (shamtField w) (rdField w))
  | 0x21#6 => ifZero (rtField w == 0) (.cvtDD (shamtField w) (rdField w))
  | 0x24#6 => ifZero (rtField w == 0) (.cvtWD (shamtField w) (rdField w))
  | 0x30#6 => ifZero (shamtField w == 0) (.cFD (rdField w) (rtField w))
  | 0x31#6 => ifZero (shamtField w == 0) (.cUnD (rdField w) (rtField w))
  | 0x32#6 => ifZero (shamtField w == 0) (.cEqD (rdField w) (rtField w))
  | 0x33#6 => ifZero (shamtField w == 0) (.cUeqD (rdField w) (rtField w))
  | 0x34#6 => ifZero (shamtField w == 0) (.cOltD (rdField w) (rtField w))
  | 0x35#6 => ifZero (shamtField w == 0) (.cUltD (rdField w) (rtField w))
  | 0x36#6 => ifZero (shamtField w == 0) (.cOleD (rdField w) (rtField w))
  | 0x37#6 => ifZero (shamtField w == 0) (.cUleD (rdField w) (rtField w))
  | 0x38#6 => ifZero (shamtField w == 0) (.cSfD (rdField w) (rtField w))
  | 0x39#6 => ifZero (shamtField w == 0) (.cNgleD (rdField w) (rtField w))
  | 0x3a#6 => ifZero (shamtField w == 0) (.cSeqD (rdField w) (rtField w))
  | 0x3b#6 => ifZero (shamtField w == 0) (.cNglD (rdField w) (rtField w))
  | 0x3c#6 => ifZero (shamtField w == 0) (.cLtD (rdField w) (rtField w))
  | 0x3d#6 => ifZero (shamtField w == 0) (.cNgeD (rdField w) (rtField w))
  | 0x3e#6 => ifZero (shamtField w == 0) (.cLeD (rdField w) (rtField w))
  | 0x3f#6 => ifZero (shamtField w == 0) (.cNgtD (rdField w) (rtField w))
  | _ => .unassigned

/-- The branches of opcode 0x11 with `fmt` 8, selected by `ft` (R113). -/
def decodeCop1Branch (w : Word) : Decoded :=
  match rtField w with
  | 0x00#5 => .instr (.bc1f (immField w))
  | 0x01#5 => .instr (.bc1t (immField w))
  | _ => .unassigned

/-- Opcode 0x11, coprocessor 1, selected by `fmt` (R113, R116). -/
def decodeCop1 (w : Word) : Decoded :=
  match rsField w with
  | 0x08#5 => decodeCop1Branch w
  | 0x10#5 => decodeCop1Single w
  | 0x11#5 => decodeCop1Double w
  | _ => .unassigned

/-- Opcode 0x10, coprocessor 0, bit 25 = 1: selected by `funct` (R114, R116). A word with the `funct` of `eret` and a bit
of 24:6 set is refused as a must-be-zero word. DESIGN CHOICE, safe (log entry 29): R116's procedure puts those bits outside
the selector, R114 names them in the assignment of `eret`, which read alone leaves such a word unassigned. -/
def decodeCop0Operation (w : Word) : Decoded :=
  match functField w with
  | 0x18#6 => ifZero (coField w == 0) .eret
  | _ => .unassigned

/-- Opcode 0x10, coprocessor 0, bit 25 = 0: selected by bits 25:21 (R114, R116). -/
def decodeCop0Move (w : Word) : Decoded :=
  match rsField w with
  | 0x00#5 => ifZero (shamtField w == 0 && functField w == 0) (.mfc0 (rtField w) (rdField w))
  | 0x04#5 => ifZero (shamtField w == 0 && functField w == 0) (.mtc0 (rtField w) (rdField w))
  | _ => .unassigned

/-- Opcode 0x10, coprocessor 0 (R114, R116). -/
def decodeCop0 (w : Word) : Decoded :=
  if w.getLsbD 25 then decodeCop0Operation w else decodeCop0Move w

/-- The opcode map (R110) and the decoding procedure (R116). -/
def decode (w : Word) : Decoded :=
  match opcodeField w with
  | 0x02#6 => .instr (.j (addressField w))
  | 0x03#6 => .instr (.jal (addressField w))
  | 0x04#6 => .instr (.beq (rsField w) (rtField w) (immField w))
  | 0x05#6 => .instr (.bne (rsField w) (rtField w) (immField w))
  | 0x06#6 => ifZero (rtField w == 0) (.blez (rsField w) (immField w))
  | 0x07#6 => ifZero (rtField w == 0) (.bgtz (rsField w) (immField w))
  | 0x08#6 => .instr (.addi (rtField w) (rsField w) (immField w))
  | 0x09#6 => .instr (.addiu (rtField w) (rsField w) (immField w))
  | 0x0a#6 => .instr (.slti (rtField w) (rsField w) (immField w))
  | 0x0b#6 => .instr (.sltiu (rtField w) (rsField w) (immField w))
  | 0x0c#6 => .instr (.andi (rtField w) (rsField w) (immField w))
  | 0x0d#6 => .instr (.ori (rtField w) (rsField w) (immField w))
  | 0x0e#6 => .instr (.xori (rtField w) (rsField w) (immField w))
  | 0x0f#6 => ifZero (rsField w == 0) (.lui (rtField w) (immField w))
  | 0x20#6 => .instr (.lb (rtField w) (rsField w) (immField w))
  | 0x21#6 => .instr (.lh (rtField w) (rsField w) (immField w))
  | 0x22#6 => .instr (.lwl (rtField w) (rsField w) (immField w))
  | 0x23#6 => .instr (.lw (rtField w) (rsField w) (immField w))
  | 0x24#6 => .instr (.lbu (rtField w) (rsField w) (immField w))
  | 0x25#6 => .instr (.lhu (rtField w) (rsField w) (immField w))
  | 0x26#6 => .instr (.lwr (rtField w) (rsField w) (immField w))
  | 0x28#6 => .instr (.sb (rtField w) (rsField w) (immField w))
  | 0x29#6 => .instr (.sh (rtField w) (rsField w) (immField w))
  | 0x2a#6 => .instr (.swl (rtField w) (rsField w) (immField w))
  | 0x2b#6 => .instr (.sw (rtField w) (rsField w) (immField w))
  | 0x2e#6 => .instr (.swr (rtField w) (rsField w) (immField w))
  | 0x2f#6 => .instr (.cache (rtField w) (rsField w) (immField w))
  | 0x30#6 => .instr (.ll (rtField w) (rsField w) (immField w))
  | 0x31#6 => .instr (.lwc1 (rtField w) (rsField w) (immField w))
  | 0x32#6 => .instr (.lwc2 (rtField w) (rsField w) (immField w))
  | 0x33#6 => .instr (.pref (rtField w) (rsField w) (immField w))
  | 0x35#6 => .instr (.ldc1 (rtField w) (rsField w) (immField w))
  | 0x36#6 => .instr (.ldc2 (rtField w) (rsField w) (immField w))
  | 0x38#6 => .instr (.sc (rtField w) (rsField w) (immField w))
  | 0x39#6 => .instr (.swc1 (rtField w) (rsField w) (immField w))
  | 0x3a#6 => .instr (.swc2 (rtField w) (rsField w) (immField w))
  | 0x3d#6 => .instr (.sdc1 (rtField w) (rsField w) (immField w))
  | 0x3e#6 => .instr (.sdc2 (rtField w) (rsField w) (immField w))
  | 0x00#6 => decodeSpecial w
  | 0x10#6 => decodeCop0 w
  | 0x11#6 => decodeCop1 w
  | _ => .unassigned

/-- The word whose four bytes stand at rising addresses: the byte at the lowest address is the most significant (R64). -/
def wordOfBytes (b0 b1 b2 b3 : Byte) : Word := b0 ++ b1 ++ b2 ++ b3

/-- Byte `k` of a word in memory order, byte 0 the most significant (R64). -/
def byteOfWord (w : Word) (k : Nat) : Byte := w.extractLsb' (8 * (3 - k)) 8

/-- The word a table entry of `nbits` bits stands for; bit 0 is its least significant bit, every bit above is 0. -/
def tableWord (nbits w : Nat) : Word := BitVec.ofNat 32 (w % 2 ^ nbits)

/-- What the decoder reads from an instruction whose bits are `w`: its four bytes laid out big endian and put together
again as a fetch does (R64, R70). -/
def decodeTableWord (nbits w : Nat) : Option Instr :=
  let v := tableWord nbits w
  match decode (wordOfBytes (byteOfWord v 0) (byteOfWord v 1) (byteOfWord v 2) (byteOfWord v 3)) with
  | .instr i => some i
  | .unassigned => none
  | .mustBeZero => none

/-! ### The encoder -/

/-- A word of format R, or FR: opcode, 25:21, 20:16, 15:11, 10:6, funct (R101, R104). -/
def packR (op : BitVec 6) (a b c d : BitVec 5) (fn : BitVec 6) : Word := op ++ a ++ b ++ c ++ d ++ fn

/-- A word of format I, or FI: opcode, 25:21, 20:16, immediate (R102, R105). -/
def packI (op : BitVec 6) (a b : BitVec 5) (imm : Half) : Word := op ++ a ++ b ++ imm

/-- A word of format J: opcode, address (R103). -/
def packJ (op : BitVec 6) (address : BitVec 26) : Word := op ++ address

/-- A word of opcode 0 with a 20-bit code (R119, R333, R334). -/
def packCode (code : BitVec 20) (fn : BitVec 6) : Word := 0x00#6 ++ code ++ fn

/-- A word of opcode 0 with two registers and a 10-bit code (R119, R342). -/
def packTrap (a b : BitVec 5) (code : BitVec 10) (fn : BitVec 6) : Word := 0x00#6 ++ a ++ b ++ code ++ fn

/-- The word of an instruction (R110 to R114, spec/opcode_table.json). -/
def encode (i : Instr) : Word :=
  match i with
  | .add rd rs rt => packR 0x00#6 rs rt rd 0#5 0x20#6
  | .addi rt rs imm => packI 0x08#6 rs rt imm
  | .addiu rt rs imm => packI 0x09#6 rs rt imm
  | .addu rd rs rt => packR 0x00#6 rs rt rd 0#5 0x21#6
  | .and rd rs rt => packR 0x00#6 rs rt rd 0#5 0x24#6
  | .andi rt rs imm => packI 0x0c#6 rs rt imm
  | .lui rt imm => packI 0x0f#6 0#5 rt imm
  | .nor rd rs rt => packR 0x00#6 rs rt rd 0#5 0x27#6
  | .or rd rs rt => packR 0x00#6 rs rt rd 0#5 0x25#6
  | .ori rt rs imm => packI 0x0d#6 rs rt imm
  | .slt rd rs rt => packR 0x00#6 rs rt rd 0#5 0x2a#6
  | .slti rt rs imm => packI 0x0a#6 rs rt imm
  | .sltiu rt rs imm => packI 0x0b#6 rs rt imm
  | .sltu rd rs rt => packR 0x00#6 rs rt rd 0#5 0x2b#6
  | .sll rd rt shamt => packR 0x00#6 0#5 rt rd shamt 0x00#6
  | .srl rd rt shamt => packR 0x00#6 0#5 rt rd shamt 0x02#6
  | .sub rd rs rt => packR 0x00#6 rs rt rd 0#5 0x22#6
  | .subu rd rs rt => packR 0x00#6 rs rt rd 0#5 0x23#6
  | .sra rd rt shamt => packR 0x00#6 0#5 rt rd shamt 0x03#6
  | .xor rd rs rt => packR 0x00#6 rs rt rd 0#5 0x26#6
  | .xori rt rs imm => packI 0x0e#6 rs rt imm
  | .sllv rd rt rs => packR 0x00#6 rs rt rd 0#5 0x04#6
  | .srlv rd rt rs => packR 0x00#6 rs rt rd 0#5 0x06#6
  | .srav rd rt rs => packR 0x00#6 rs rt rd 0#5 0x07#6
  | .movz rd rs rt => packR 0x00#6 rs rt rd 0#5 0x0a#6
  | .movn rd rs rt => packR 0x00#6 rs rt rd 0#5 0x0b#6
  | .beq rs rt imm => packI 0x04#6 rs rt imm
  | .bne rs rt imm => packI 0x05#6 rs rt imm
  | .j address => packJ 0x02#6 address
  | .jal address => packJ 0x03#6 address
  | .jr rs => packR 0x00#6 rs 0#5 0#5 0#5 0x08#6
  | .blez rs imm => packI 0x06#6 rs 0#5 imm
  | .bgtz rs imm => packI 0x07#6 rs 0#5 imm
  | .jalr rd rs => packR 0x00#6 rs 0#5 rd 0#5 0x09#6
  | .lbu rt rs imm => packI 0x24#6 rs rt imm
  | .lhu rt rs imm => packI 0x25#6 rs rt imm
  | .ll rt rs imm => packI 0x30#6 rs rt imm
  | .lw rt rs imm => packI 0x23#6 rs rt imm
  | .sb rt rs imm => packI 0x28#6 rs rt imm
  | .sc rt rs imm => packI 0x38#6 rs rt imm
  | .sh rt rs imm => packI 0x29#6 rs rt imm
  | .sw rt rs imm => packI 0x2b#6 rs rt imm
  | .lb rt rs imm => packI 0x20#6 rs rt imm
  | .lh rt rs imm => packI 0x21#6 rs rt imm
  | .lwl rt rs imm => packI 0x22#6 rs rt imm
  | .lwr rt rs imm => packI 0x26#6 rs rt imm
  | .swl rt rs imm => packI 0x2a#6 rs rt imm
  | .swr rt rs imm => packI 0x2e#6 rs rt imm
  | .div rs rt => packR 0x00#6 rs rt 0#5 0#5 0x1a#6
  | .divu rs rt => packR 0x00#6 rs rt 0#5 0#5 0x1b#6
  | .mfhi rd => packR 0x00#6 0#5 0#5 rd 0#5 0x10#6
  | .mflo rd => packR 0x00#6 0#5 0#5 rd 0#5 0x12#6
  | .mult rs rt => packR 0x00#6 rs rt 0#5 0#5 0x18#6
  | .multu rs rt => packR 0x00#6 rs rt 0#5 0#5 0x19#6
  | .mthi rs => packR 0x00#6 rs 0#5 0#5 0#5 0x11#6
  | .mtlo rs => packR 0x00#6 rs 0#5 0#5 0#5 0x13#6
  | .addS fd fs ft => packR 0x11#6 0x10#5 ft fs fd 0x00#6
  | .addD fd fs ft => packR 0x11#6 0x11#5 ft fs fd 0x00#6
  | .subS fd fs ft => packR 0x11#6 0x10#5 ft fs fd 0x01#6
  | .subD fd fs ft => packR 0x11#6 0x11#5 ft fs fd 0x01#6
  | .mulS fd fs ft => packR 0x11#6 0x10#5 ft fs fd 0x02#6
  | .mulD fd fs ft => packR 0x11#6 0x11#5 ft fs fd 0x02#6
  | .divS fd fs ft => packR 0x11#6 0x10#5 ft fs fd 0x03#6
  | .divD fd fs ft => packR 0x11#6 0x11#5 ft fs fd 0x03#6
  | .sqrtS fd fs => packR 0x11#6 0x10#5 0#5 fs fd 0x04#6
  | .sqrtD fd fs => packR 0x11#6 0x11#5 0#5 fs fd 0x04#6
  | .absS fd fs => packR 0x11#6 0x10#5 0#5 fs fd 0x05#6
  | .absD fd fs => packR 0x11#6 0x11#5 0#5 fs fd 0x05#6
  | .movS fd fs => packR 0x11#6 0x10#5 0#5 fs fd 0x06#6
  | .movD fd fs => packR 0x11#6 0x11#5 0#5 fs fd 0x06#6
  | .negS fd fs => packR 0x11#6 0x10#5 0#5 fs fd 0x07#6
  | .negD fd fs => packR 0x11#6 0x11#5 0#5 fs fd 0x07#6
  | .roundWS fd fs => packR 0x11#6 0x10#5 0#5 fs fd 0x0c#6
  | .roundWD fd fs => packR 0x11#6 0x11#5 0#5 fs fd 0x0c#6
  | .truncWS fd fs => packR 0x11#6 0x10#5 0#5 fs fd 0x0d#6
  | .truncWD fd fs => packR 0x11#6 0x11#5 0#5 fs fd 0x0d#6
  | .ceilWS fd fs => packR 0x11#6 0x10#5 0#5 fs fd 0x0e#6
  | .ceilWD fd fs => packR 0x11#6 0x11#5 0#5 fs fd 0x0e#6
  | .floorWS fd fs => packR 0x11#6 0x10#5 0#5 fs fd 0x0f#6
  | .floorWD fd fs => packR 0x11#6 0x11#5 0#5 fs fd 0x0f#6
  | .movzS fd fs rt => packR 0x11#6 0x10#5 rt fs fd 0x12#6
  | .movzD fd fs rt => packR 0x11#6 0x11#5 rt fs fd 0x12#6
  | .movnS fd fs rt => packR 0x11#6 0x10#5 rt fs fd 0x13#6
  | .movnD fd fs rt => packR 0x11#6 0x11#5 rt fs fd 0x13#6
  | .cvtSD fd fs => packR 0x11#6 0x11#5 0#5 fs fd 0x20#6
  | .cvtDS fd fs => packR 0x11#6 0x10#5 0#5 fs fd 0x21#6
  | .cvtWS fd fs => packR 0x11#6 0x10#5 0#5 fs fd 0x24#6
  | .cvtWD fd fs => packR 0x11#6 0x11#5 0#5 fs fd 0x24#6
  | .cvtSS fd fs => packR 0x11#6 0x10#5 0#5 fs fd 0x20#6
  | .cvtDD fd fs => packR 0x11#6 0x11#5 0#5 fs fd 0x21#6
  | .cFS fs ft => packR 0x11#6 0x10#5 ft fs 0#5 0x30#6
  | .cFD fs ft => packR 0x11#6 0x11#5 ft fs 0#5 0x30#6
  | .cUnS fs ft => packR 0x11#6 0x10#5 ft fs 0#5 0x31#6
  | .cUnD fs ft => packR 0x11#6 0x11#5 ft fs 0#5 0x31#6
  | .cEqS fs ft => packR 0x11#6 0x10#5 ft fs 0#5 0x32#6
  | .cEqD fs ft => packR 0x11#6 0x11#5 ft fs 0#5 0x32#6
  | .cUeqS fs ft => packR 0x11#6 0x10#5 ft fs 0#5 0x33#6
  | .cUeqD fs ft => packR 0x11#6 0x11#5 ft fs 0#5 0x33#6
  | .cOltS fs ft => packR 0x11#6 0x10#5 ft fs 0#5 0x34#6
  | .cOltD fs ft => packR 0x11#6 0x11#5 ft fs 0#5 0x34#6
  | .cUltS fs ft => packR 0x11#6 0x10#5 ft fs 0#5 0x35#6
  | .cUltD fs ft => packR 0x11#6 0x11#5 ft fs 0#5 0x35#6
  | .cOleS fs ft => packR 0x11#6 0x10#5 ft fs 0#5 0x36#6
  | .cOleD fs ft => packR 0x11#6 0x11#5 ft fs 0#5 0x36#6
  | .cUleS fs ft => packR 0x11#6 0x10#5 ft fs 0#5 0x37#6
  | .cUleD fs ft => packR 0x11#6 0x11#5 ft fs 0#5 0x37#6
  | .cSfS fs ft => packR 0x11#6 0x10#5 ft fs 0#5 0x38#6
  | .cSfD fs ft => packR 0x11#6 0x11#5 ft fs 0#5 0x38#6
  | .cNgleS fs ft => packR 0x11#6 0x10#5 ft fs 0#5 0x39#6
  | .cNgleD fs ft => packR 0x11#6 0x11#5 ft fs 0#5 0x39#6
  | .cSeqS fs ft => packR 0x11#6 0x10#5 ft fs 0#5 0x3a#6
  | .cSeqD fs ft => packR 0x11#6 0x11#5 ft fs 0#5 0x3a#6
  | .cNglS fs ft => packR 0x11#6 0x10#5 ft fs 0#5 0x3b#6
  | .cNglD fs ft => packR 0x11#6 0x11#5 ft fs 0#5 0x3b#6
  | .cLtS fs ft => packR 0x11#6 0x10#5 ft fs 0#5 0x3c#6
  | .cLtD fs ft => packR 0x11#6 0x11#5 ft fs 0#5 0x3c#6
  | .cNgeS fs ft => packR 0x11#6 0x10#5 ft fs 0#5 0x3d#6
  | .cNgeD fs ft => packR 0x11#6 0x11#5 ft fs 0#5 0x3d#6
  | .cLeS fs ft => packR 0x11#6 0x10#5 ft fs 0#5 0x3e#6
  | .cLeD fs ft => packR 0x11#6 0x11#5 ft fs 0#5 0x3e#6
  | .cNgtS fs ft => packR 0x11#6 0x10#5 ft fs 0#5 0x3f#6
  | .cNgtD fs ft => packR 0x11#6 0x11#5 ft fs 0#5 0x3f#6
  | .lwc1 ft rs imm => packI 0x31#6 rs ft imm
  | .ldc1 ft rs imm => packI 0x35#6 rs ft imm
  | .swc1 ft rs imm => packI 0x39#6 rs ft imm
  | .sdc1 ft rs imm => packI 0x3d#6 rs ft imm
  | .bc1t imm => packI 0x11#6 8#5 1#5 imm
  | .bc1f imm => packI 0x11#6 8#5 0#5 imm
  | .mfc0 rt rd => packR 0x10#6 0#5 rt rd 0#5 0x00#6
  | .mtc0 rt rd => packR 0x10#6 4#5 rt rd 0#5 0x00#6
  | .eret => packR 0x10#6 0x10#5 0#5 0#5 0#5 0x18#6
  | .syscall code => packCode code 0x0c#6
  | .brk code => packCode code 0x0d#6
  | .sync => packR 0x00#6 0#5 0#5 0#5 0#5 0x0f#6
  | .tge rs rt code => packTrap rs rt code 0x30#6
  | .tgeu rs rt code => packTrap rs rt code 0x31#6
  | .tlt rs rt code => packTrap rs rt code 0x32#6
  | .tltu rs rt code => packTrap rs rt code 0x33#6
  | .teq rs rt code => packTrap rs rt code 0x34#6
  | .tne rs rt code => packTrap rs rt code 0x36#6
  | .cache op rs imm => packI 0x2f#6 rs op imm
  | .pref hint rs imm => packI 0x33#6 rs hint imm
  | .lwc2 rt rs imm => packI 0x32#6 rs rt imm
  | .ldc2 rt rs imm => packI 0x36#6 rs rt imm
  | .swc2 rt rs imm => packI 0x3a#6 rs rt imm
  | .sdc2 rt rs imm => packI 0x3e#6 rs rt imm

end Sys2Proof
end

