-- ==== Sys2Proof/Config.lean ====
section
/-! DEFINITION. What the spec leaves to the implementation (spec 00_scope.md R7): the open parameters as plain data
(`Platform`, held in the state and constant along a run), what the platform does between two steps
(`PlatformInput`), and the draws, each an opaque constant of which nothing can be proved. -/

namespace Sys2Proof

/-- The three kinds of access that `Mapped` and `BusError` distinguish (R60). -/
inductive AccessKind where
  | fetch
  | load
  | store
  deriving DecidableEq, Repr

/-- A range of byte addresses `base .. base + size - 1`, and the kinds and widths in bytes of the accesses it stands for:
the arguments `addr`, `n`, `kind` of `Mapped` and `BusError` (R7, R73; log entry 4). -/
structure Region where
  base  : Nat
  size  : Nat
  fetch : Bool
  load  : Bool
  store : Bool
  widths : List Nat
  deriving DecidableEq, Repr

/-- The open parameters of R7 that are data. Every statement about the machine is about every value of them. -/
structure Platform where
  /-- `EXC_VECTOR` (R73, R395). -/
  excVector : Word
  /-- `RESET_PC` (R73, R430). -/
  resetPc : Word
  /-- `Mapped`: the bytes that exist, for each kind and width of access (R60, R73). -/
  mapped : List Region
  /-- `BusError`: the bytes whose access answers with a bus error, for each kind and width of access (R75). -/
  busError : List Region
  /-- `BLANK_IS_RI`: an unassigned word raises RI (true) or is refused (false) (R118). -/
  blankIsRi : Bool
  /-- `SC_MAY_FAIL_SPURIOUSLY` (R81). -/
  scMayFail : Bool
  /-- `COHERENT_IFETCH`: a fetch sees the bytes a store of the run has written (true) or is refused (false) (R85). -/
  coherentIfetch : Bool
  deriving DecidableEq, Repr

/-- What the platform does between two steps: the level of the six interrupt lines from then on (R398) and the bytes
another agent writes (R78). -/
structure PlatformInput where
  intLines : BitVec 6
  writes   : List (Word × Byte)
  deriving DecidableEq, Repr

/-- The two floating-point formats (R250). -/
inductive FpFormat where
  | single
  | double
  deriving DecidableEq, Repr

/-- The operations that can produce a NaN or an invalid word: the first argument of `FpNaN` and `FpToIntInvalid`. -/
inductive FpOp where
  | add | sub | mul | div | sqrt | abs | neg
  | convert
  | round | trunc | ceil | floor | cvtW
  deriving DecidableEq, Repr

/-- The two divisions, the first argument of `DivByZero`. -/
inductive DivOp where
  | div
  | divu
  deriving DecidableEq, Repr

namespace Config

/-- The default of `EXC_VECTOR` (R7). -/
def excVectorDefault : Word := 0x80000180#32

/-- The default of `RESET_PC` (R7). -/
def resetPcDefault : Word := 0xBFC00000#32

/-- The widths of the accesses the processor makes (R62, R211 to R214). -/
def accessWidths : List Nat := [1, 2, 3, 4]

/-- The whole address space, for every kind and width of access: what `Mapped` is on the default platform. DESIGN CHOICE,
unsafe (log entry 4): the spec leaves the address map to the platform (R73). -/
def wholeAddressSpace : Region := ⟨0, 2 ^ 32, true, true, true, accessWidths⟩

/-- The default platform: R7's defaults, everything mapped, no bus error (log entries 2 to 7). -/
def platformDefault : Platform where
  excVector      := excVectorDefault
  resetPc        := resetPcDefault
  mapped         := [wholeAddressSpace]
  busError       := []
  blankIsRi      := false
  scMayFail      := true
  coherentIfetch := false

/-- FREE VALUE. The byte at an address that neither the platform nor a store has written (R432, U14; log entry 11). -/
opaque unwrittenByte (addr : Nat) : Byte

/-- FREE VALUE. `FpNaN(op, operands)` (R254, U4): sign and fraction of the NaN an operation of a format produces in step
`time`; `fpNaNPattern` makes a NaN of any pair of values (log entry 12). -/
opaque fpNaN (time : Nat) (op : FpOp) (fmt : FpFormat) (operands : List Dword) : Bool × Nat

/-- FREE VALUE. `FpToIntInvalid(op, operand)` (R249, U5): the word a float-to-word conversion returns in step `time` when
the value does not fit (log entry 13). -/
opaque fpToIntInvalid (time : Nat) (op : FpOp) (fmt : FpFormat) (operand : Dword) : Word

/-- FREE VALUE. `DivByZero(op, rs value)` (R231, R232, U1): the pair `HI`, `LO` after a division by zero in step `time`
(log entry 14). -/
opaque divByZero (time : Nat) (op : DivOp) (rsValue : Word) : Word × Word

/-- FREE VALUE. Whether an `sc` that is allowed to fail does so in step `time` (R81, R82, U3b, U18; log entries 6, 15). -/
opaque scFails (time : Nat) : Bool

end Config

end Sys2Proof
end

