-- ==== Sys2Proof/Machine/State.lean ====
section
/-! DEFINITION. The state of the machine as plain data: every entry of the list of 10_state.md R20, the fields the model
itself needs to say what the spec says (`llTouched`, `stored`, `time`, `inputs`, `plat`), the reasons a step can stop,
and the state right after reset (R43, R430, R431). -/

namespace Sys2Proof.Machine

/-- `Mem` (20_memory.md R60): the bytes the platform or a store has written, by rising address. An address that is not
listed holds a byte of which nothing is known (R432, U14): it reads as `Config.unwrittenByte` of the address. -/
abbrev Memory := List Host.Cell

/-- The state of the machine. -/
structure State where
  /-- the general registers (R21); register 0 is read and written through `State.x` and `State.setX` only -/
  gpr : Vector Word 32
  /-- the address of the instruction being executed (R24) -/
  pc : Word
  /-- the address of the instruction that executes next (R25) -/
  npc : Word
  /-- `in_ds`: the instruction being executed is in a delay slot (R41) -/
  inDs : Bool
  /-- `HI` (R28) -/
  hi : Word
  /-- `LO` (R28) -/
  lo : Word
  /-- the floating-point registers (R30); a double is a pair of them (R31) -/
  fpr : Vector Word 32
  /-- `FPcond` (R32) -/
  fpcond : Bool
  /-- `CR[12]`, Status: IM 15:8, UM 4, EL 1, IE 0 (R35) -/
  status : Word
  /-- `CR[13]`, Cause: BD 31, IP 15:8, ExcCode 6:2 (R36); bits 15:10 are the interrupt lines at this instant (R398) -/
  cause : Word
  /-- `CR[14]`, EPC (R37) -/
  epc : Word
  /-- `CR[8]`, BadVAddr (R38) -/
  badVAddr : Word
  /-- `LLbit` (R40) -/
  llBit : Bool
  /-- `LLaddr` (R40) -/
  llAddr : Word
  /-- the model's own: the processor has stored into the linked word since the `ll` (R82, U3b; log entry 15) -/
  llTouched : Bool
  /-- `Mem` (R60) -/
  mem : Memory
  /-- the model's own: the addresses, rising, of the bytes a store of this run has written (R85; log entry 7) -/
  stored : List Nat
  /-- the model's own: the number of steps begun, which tells the draws of two steps apart (R450; log entry 12) -/
  time : Nat
  /-- the model's own: what the platform does before each of the coming steps (R78, R398; log entry 8) -/
  inputs : List PlatformInput
  /-- the model's own: the open parameters of R7, constant along a run (log entry 1) -/
  plat : Platform
  deriving DecidableEq, Repr

/-- The reasons for which the machine stops. There is none: what the spec calls an exception is a next state (R395), and
the processor never stops by itself (R434; log entry 27). No one raises it; safe. -/
inductive Fault where
  deriving DecidableEq, Repr

/-- The situations to which the spec gives no meaning (`refuse`, R10), by name. -/
inductive Refusal where
  /-- an instruction whose arm of `exec` is not written; raised by `exec`; safe -/
  | notModelled (mnemonic : String)
  /-- R118: a word whose selector the opcode maps leave blank, with `BLANK_IS_RI` false; raised by `step`; safe -/
  | unassignedWord
  /-- R119: a word with a non-zero must-be-zero field; raised by `step`; safe -/
  | mustBeZeroField
  /-- R85: a fetch from a byte that a store of this run has written, with `COHERENT_IFETCH` false; raised by `step`;
  safe -/
  | fetchOfStoredByte
  /-- R181, R332: a branch, a jump or `eret` in a delay slot; raised by those instructions; safe -/
  | transferInDelaySlot
  /-- R189: `jalr` whose link register is its target register and not register 0; raised by `jalr`; safe -/
  | jalrLinkIsTarget
  /-- R31, R254: an odd register number for a double; raised by the double-precision instructions; safe -/
  | oddDoubleRegister
  /-- R39: a control register that no source describes; raised by `mfc0` and `mtc0`; safe -/
  | undescribedControlRegister
  /-- R81: `sc` to another address than that of the link; raised by `sc`; safe -/
  | scOtherAddress
  /-- R287, R288: a conversion from a format to itself; raised by `cvt.s.s` and `cvt.d.d`; safe -/
  | sameFormatConversion
  deriving DecidableEq, Repr

/-- The machine right after reset on a platform, with these levels on the interrupt lines (R43, R430, R431): kernel mode,
interrupts disabled, at the platform's `RESET_PC`. The registers the spec leaves unspecified hold zero: DESIGN CHOICE,
unsafe (log entries 9 and 10). No memory byte is listed (R432) and no input is waiting (log entry 8). -/
def State.resetOn (p : Platform) (intLines : BitVec 6) : State where
  gpr       := Vector.replicate 32 0#32
  pc        := p.resetPc
  npc       := p.resetPc + 4#32
  inDs      := false
  hi        := 0#32
  lo        := 0#32
  fpr       := Vector.replicate 32 0#32
  fpcond    := false
  status    := 0#32
  cause     := 0#16 ++ intLines ++ 0#10
  epc       := 0#32
  badVAddr  := 0#32
  llBit     := false
  llAddr    := 0#32
  llTouched := false
  mem       := []
  stored    := []
  time      := 0
  inputs    := []
  plat      := p

/-- The machine right after reset on the default platform of R7, with the interrupt lines low (log entries 2 to 8). -/
def State.reset : State := State.resetOn Config.platformDefault 0#6

end Sys2Proof.Machine
end

