-- ==== Sys2Proof/Machine/Ops.lean ====
section
/-! DEFINITION. The named operations over memory and registers, the checks of a memory access, taking an exception and
returning from one, the interrupt condition, and what the platform does between two steps. Every instruction reads and
writes the state through these. -/

namespace Sys2Proof.Machine

/-! ### Memory: a list of cells with strictly rising addresses -/

/-- The memory keeps its canonical form: addresses strictly rising, none outside the 32-bit space (R60). -/
abbrev Memory.wf (m : Memory) : Prop := m.Pairwise (fun c d => c.1 < d.1) ∧ ∀ c ∈ m, c.1 < 2 ^ 32

/-- The byte listed at an address, if there is one. -/
def Memory.lookup : Memory → Nat → Option Byte
  | [], _ => none
  | c :: m, a => if c.1 = a then some c.2 else Memory.lookup m a

/-- The memory with byte `b` at address `a`; no other byte changes (R63). -/
def Memory.store : Memory → Nat → Byte → Memory
  | [], a, b => [(a, b)]
  | c :: m, a, b =>
    if a < c.1 then (a, b) :: c :: m else if a = c.1 then (a, b) :: m else c :: Memory.store m a b

/-- A rising list of addresses with one more. -/
def insertAddr : List Nat → Nat → List Nat
  | [], a => [a]
  | c :: l, a => if a < c then a :: c :: l else if a = c then c :: l else c :: insertAddr l a

/-- A list of addresses without one. -/
def eraseAddr (l : List Nat) (a : Nat) : List Nat := l.filter (· != a)

/-! ### Registers -/

/-- A register of a file of 32. -/
def regRead (r : Vector Word 32) (n : RegNum) : Word := r[n.toNat]'n.isLt

/-- A file of 32 registers with one changed. -/
def regWrite (r : Vector Word 32) (n : RegNum) (v : Word) : Vector Word 32 := r.set n.toNat v n.isLt

/-- `x[n]`: general register `n`; register 0 reads zero (R10, R21). -/
def State.x (s : State) (n : RegNum) : Word := if n = 0#5 then 0#32 else regRead s.gpr n

/-- `x[n] <- v`; a write to register 0 is discarded (R10, R21). -/
def State.setX (s : State) (n : RegNum) (v : Word) : State :=
  { s with gpr := if n = 0#5 then s.gpr else regWrite s.gpr n v }

/-- `f[n]`: floating-point register `n`, raw bits (R30). -/
def State.f (s : State) (n : RegNum) : Word := regRead s.fpr n

/-- `f[n] <- v` (R30). -/
def State.setF (s : State) (n : RegNum) (v : Word) : State := { s with fpr := regWrite s.fpr n v }

/-- `fd64[n]`: the pair `f[n], f[n+1]`, `f[n]` the more significant word (R31). -/
def State.fd64 (s : State) (n : RegNum) : Dword := s.f n ++ s.f (n + 1#5)

/-- `fd64[n] <- v` (R31). -/
def State.setFd64 (s : State) (n : RegNum) (v : Dword) : State :=
  { s with fpr := regWrite (regWrite s.fpr n (v.extractLsb' 32 32)) (n + 1#5) (v.extractLsb' 0 32) }

/-- `HI <- v` (R28) -/
def State.setHi (s : State) (v : Word) : State := { s with hi := v }

/-- `LO <- v` (R28) -/
def State.setLo (s : State) (v : Word) : State := { s with lo := v }

/-- `FPcond <- b` (R32) -/
def State.setFpcond (s : State) (b : Bool) : State := { s with fpcond := b }

/-- `LLbit <- 1; LLaddr <- a` (R80) -/
def State.setLink (s : State) (a : Word) : State := { s with llBit := true, llAddr := a, llTouched := false }

/-- `LLbit <- 0` (R82) -/
def State.clearLink (s : State) : State := { s with llBit := false, llTouched := false }

/-! ### Status, Cause and the mode -/

/-- Status.UM (R35) -/
def State.um (s : State) : Bool := s.status.getLsbD 4

/-- Status.EL (R35) -/
def State.el (s : State) : Bool := s.status.getLsbD 1

/-- Status.IE (R35) -/
def State.ie (s : State) : Bool := s.status.getLsbD 0

/-- Status.IM (R35) -/
def State.im (s : State) : Byte := s.status.extractLsb' 8 8

/-- Cause.IP (R36) -/
def State.ip (s : State) : Byte := s.cause.extractLsb' 8 8

/-- User mode: UM set and EL clear; otherwise kernel mode (R410). -/
def State.userMode (s : State) : Bool := s.um && !s.el

/-! ### The bytes of memory -/

/-- `Mem[a]`. A byte that nothing has written is a free value (R432, U14; log entry 11). -/
def State.byte (s : State) (a : Word) : Byte :=
  (Memory.lookup s.mem a.toNat).getD (Config.unwrittenByte a.toNat)

/-- `MemRead(a, 1)` (R62) -/
def State.read8 (s : State) (a : Word) : Byte := s.byte a

/-- `MemRead(a, 2)`: big endian (R62, R64) -/
def State.read16 (s : State) (a : Word) : Half := s.byte a ++ s.byte (a + 1#32)

/-- `MemRead(a, 4)`: big endian, address arithmetic modulo 2^32 (R62, R64) -/
def State.read32 (s : State) (a : Word) : Word :=
  wordOfBytes (s.byte a) (s.byte (a + 1#32)) (s.byte (a + 2#32)) (s.byte (a + 3#32))

/-- The two addresses lie in one aligned word (R83). -/
def sameWord (a b : Word) : Bool := a.extractLsb' 2 30 == b.extractLsb' 2 30

/-- One byte stored by the processor: memory changes, the address counts as stored by the run (R85), and a store into
the linked word leaves the outcome of the coming `sc` open (R82). -/
def State.storeByte (s : State) (a : Word) (b : Byte) : State :=
  { s with
    mem := Memory.store s.mem a.toNat b
    stored := insertAddr s.stored a.toNat
    llTouched := s.llTouched || (s.llBit && sameWord a s.llAddr) }

/-- Bytes stored at rising addresses, the first at `a`. -/
def State.storeBytes (s : State) (a : Word) (bytes : List Byte) : State :=
  match bytes with
  | [] => s
  | b :: rest => (s.storeByte a b).storeBytes (a + 1#32) rest

/-- The bytes of a word in memory order, the most significant first (R64). -/
def wordBytes (w : Word) : List Byte := [byteOfWord w 0, byteOfWord w 1, byteOfWord w 2, byteOfWord w 3]

/-- `MemWrite(a, 1, v)` (R63) -/
def State.write8 (s : State) (a : Word) (v : Byte) : State := s.storeBytes a [v]

/-- `MemWrite(a, 2, v)` (R63, R64) -/
def State.write16 (s : State) (a : Word) (v : Half) : State :=
  s.storeBytes a [v.extractLsb' 8 8, v.extractLsb' 0 8]

/-- `MemWrite(a, 4, v)` (R63, R64) -/
def State.write32 (s : State) (a : Word) (v : Word) : State := s.storeBytes a (wordBytes v)

/-! ### The platform's answer to an access -/

/-- The region stands for accesses of this kind. -/
def regionAllows (r : Region) (kind : AccessKind) : Bool :=
  match kind with
  | .fetch => r.fetch
  | .load => r.load
  | .store => r.store

/-- The region holds byte `a` for accesses of this kind and of `n` bytes. -/
def regionCovers (r : Region) (kind : AccessKind) (n a : Nat) : Bool :=
  regionAllows r kind && r.widths.contains n && decide (r.base ≤ a) && decide (a < r.base + r.size)

/-- The platform serves byte `a` to an access of `n` bytes: it is mapped and gives no bus error (R60, R73, R75). -/
def servesByte (p : Platform) (kind : AccessKind) (n a : Nat) : Bool :=
  p.mapped.any (fun r => regionCovers r kind n a) && !p.busError.any (fun r => regionCovers r kind n a)

/-- The width of the accesses that move `n` bytes: a doubleword is moved by two word accesses (R71, R322). -/
def accessWidth (n : Nat) : Nat := min n 4

/-- The platform serves `n` bytes from `a` on: every byte the instruction would touch (R75, R386). -/
def serves (p : Platform) (kind : AccessKind) (a : Word) (n : Nat) : Bool :=
  (List.range n).all (fun i => servesByte p kind (accessWidth n) (a + BitVec.ofNat 32 i).toNat)

/-- The platform has byte `a`: it is mapped for a fetch, a load or a store of some width. DESIGN CHOICE, safe (log entry
24): R78 lets another agent write "any mapped byte" and does not say for which kind of access it must be mapped. -/
def mapsByte (p : Platform) (a : Nat) : Bool :=
  [AccessKind.fetch, .load, .store].any
    (fun kind => Config.accessWidths.any (fun n => p.mapped.any (fun r => regionCovers r kind n a)))

/-! ### Exceptions -/

/-- The exceptions something in this spec raises (R380). -/
inductive ExcCode where
  | int | adel | ades | ibe | dbe | sys | bp | ri | cpu | ov | tr
  deriving DecidableEq, Repr

/-- The number that trap entry writes to Cause.ExcCode (R380). -/
def ExcCode.number (c : ExcCode) : BitVec 5 :=
  match c with
  | .int => 0#5
  | .adel => 4#5
  | .ades => 5#5
  | .ibe => 6#5
  | .dbe => 7#5
  | .sys => 8#5
  | .bp => 9#5
  | .ri => 10#5
  | .cpu => 11#5
  | .ov => 12#5
  | .tr => 13#5

/-- Cause with other BD and ExcCode fields (R36). -/
def causeWith (cause : Word) (bd : Bool) (code : BitVec 5) : Word :=
  BitVec.ofBool bd ++ cause.extractLsb' 7 24 ++ code ++ cause.extractLsb' 0 2

/-- Status with another EL bit (R35). -/
def statusWithEl (status : Word) (el : Bool) : Word :=
  status.extractLsb' 2 30 ++ BitVec.ofBool el ++ status.extractLsb' 0 1

/-- Taking an exception or an interrupt (R395): EPC and Cause.BD keep their values when EL is set already (R401), the
code is recorded, BadVAddr for address errors, EL is set, control goes to `EXC_VECTOR`. -/
def State.trapEntry (s : State) (code : ExcCode) (badVAddr : Option Word) : State :=
  { s with
    epc := if s.el then s.epc else if s.inDs then s.pc - 4#32 else s.pc
    cause := causeWith s.cause (if s.el then s.cause.getLsbD 31 else s.inDs) code.number
    badVAddr := badVAddr.getD s.badVAddr
    status := statusWithEl s.status true
    pc := s.plat.excVector
    npc := s.plat.excVector + 4#32
    inDs := false }

/-- Returning from an exception (R332, R400): EL is cleared, the link is cleared, control goes to EPC at once. -/
def State.exceptionReturn (s : State) : State :=
  { s with
    status := statusWithEl s.status false
    llBit := false
    llTouched := false
    pc := s.epc
    npc := s.epc + 4#32
    inDs := false }

/-! ### How a step ends -/

/-- The outcome of an instruction or of a step. -/
abbrev Result := Host.Outcome State Fault Refusal

/-- `raise` an exception that records no address (R10, R395). -/
def State.raise (s : State) (code : ExcCode) : Result := .next (s.trapEntry code none)

/-- `raise` an address error, which records the address (R10, R383, R384). -/
def State.raiseAddress (s : State) (code : ExcCode) (addr : Word) : Result := .next (s.trapEntry code (some addr))

/-- The advance after an instruction that is no branch and no jump (R26, third case). -/
def State.advance (s : State) : State := { s with pc := s.npc, npc := s.npc + 4#32, inDs := false }

/-- The advance after a branch or jump: `delayed pc <- target` when `taken` (R26, first and second case). -/
def State.transfer (s : State) (taken : Bool) (target : Word) : State :=
  { s with pc := s.npc, npc := if taken then target else s.npc + 4#32, inDs := true }

/-- An instruction that falls through: the state it has written, advanced (R26). -/
def retire (s : State) : Result := .next s.advance

/-- A branch or jump, refused in a delay slot (R181). -/
def State.branch (s : State) (taken : Bool) (target : Word) : Result :=
  if s.inDs then .refused .transferInDelaySlot else .next (s.transfer taken target)

/-! ### The checks of a data access -/

/-- The address error of a data access: AdES for a store, AdEL otherwise (R66, R74). -/
def addressError (kind : AccessKind) : ExcCode :=
  match kind with
  | .fetch => .adel
  | .load => .adel
  | .store => .ades

/-- A user-mode access above the user space: bit 31 of the address set (R74). -/
def State.aboveUserLimit (s : State) (addr : Word) : Bool := s.userMode && addr.msb

/-- A data access at `addr` that needs alignment `align` and touches `n` bytes from `first` on: the checks of R68, in
order, and `run` when all pass. -/
def State.access (s : State) (kind : AccessKind) (align : Nat) (addr first : Word) (n : Nat) (run : Result) : Result :=
  if addr.toNat % align ≠ 0 then s.raiseAddress (addressError kind) addr
  else if s.aboveUserLimit addr then s.raiseAddress (addressError kind) addr
  else if serves s.plat kind first n then run
  else s.raise .dbe

/-! ### Interrupts and the platform -/

/-- The condition under which a step takes an interrupt (R392, R399). -/
def State.interruptPending (s : State) : Bool := s.ie && !s.el && (s.ip &&& s.im) != 0#8

/-- Cause with other interrupt lines in IP[7:2] (R36, R398). -/
def causeWithLines (cause : Word) (lines : BitVec 6) : Word := cause.extractLsb' 16 16 ++ lines ++ cause.extractLsb' 0 10

/-- One byte written by another agent (R78): only a byte mapped for some access can be written (log entry 24), the write
is no store of the run, and it clears the link when it lies in the linked word (R82). -/
def State.externalWrite (s : State) (a : Word) (b : Byte) : State :=
  if mapsByte s.plat a.toNat then
    { s with
      mem := Memory.store s.mem a.toNat b
      llBit := s.llBit && !sameWord a s.llAddr
      llTouched := s.llTouched && !sameWord a s.llAddr }
  else s

/-- The bytes another agent writes, in order. -/
def State.externalWrites (s : State) (writes : List (Word × Byte)) : State :=
  match writes with
  | [] => s
  | w :: rest => (s.externalWrite w.1 w.2).externalWrites rest

/-- What stands before every step: the step is counted, and the platform does what the head of `inputs` says; with no
input left the lines stay as they are (R78, R398; log entry 8). -/
def State.beginStep (s : State) : State :=
  match s.inputs with
  | [] => { s with time := s.time + 1 }
  | i :: rest =>
    { s with time := s.time + 1, inputs := rest, cause := causeWithLines s.cause i.intLines }.externalWrites i.writes

/-! ### Fetch -/

/-- What a fetch at the `pc` gives. -/
inductive Fetched where
  /-- the word at the `pc` -/
  | word (w : Word)
  /-- AdEL: the `pc` is misaligned, or above the user space in user mode (R67, R74) -/
  | addressError
  /-- IBE (R75, R385) -/
  | busError
  /-- a byte of the word was stored by this run and fetches are not coherent (R85) -/
  | storedByte
  deriving DecidableEq, Repr

/-- One of the four bytes at `a` was written by a store of this run (R85). -/
def State.storedWord (s : State) (a : Word) : Bool :=
  (List.range 4).any (fun i => s.stored.contains (a + BitVec.ofNat 32 i).toNat)

/-- The fetch at the `pc`: the checks of R67 and R68 in order, then R85, then the word (R70). -/
def State.fetch (s : State) : Fetched :=
  if s.pc.toNat % 4 ≠ 0 then .addressError
  else if s.aboveUserLimit s.pc then .addressError
  else if !serves s.plat .fetch s.pc 4 then .busError
  else if !s.plat.coherentIfetch && s.storedWord s.pc then .storedByte
  else .word (s.read32 s.pc)

/-- Bytes placed in memory by the platform, not by a store of the run (R432), at rising addresses. -/
def State.placeBytes (s : State) (a : Word) (bytes : List Byte) : State :=
  match bytes with
  | [] => s
  | b :: rest =>
    { s with mem := Memory.store s.mem a.toNat b, stored := eraseAddr s.stored a.toNat }.placeBytes (a + 1#32) rest

end Sys2Proof.Machine
end

