-- ==== Sys2Proof/Machine/Operands.lean ====
section
/-! DEFINITION. The operand forms: the four derived operands of 00_scope.md R12, the one addressing mode (R200), shift
amounts (R155, R162), and the doubles' register check (R31, R254). -/

namespace Sys2Proof.Machine

/-- `EstSegnoImm`: the immediate, sign-extended (R12). -/
def signedImm (imm : Half) : Word := imm.signExtend 32

/-- `EstZeroImm`: the immediate, zero-extended (R12). -/
def zeroImm (imm : Half) : Word := imm.zeroExtend 32

/-- `IndSaltoCond`: the immediate counts words, `sext_32({imm, 0b00})` (R12). -/
def branchOffset (imm : Half) : Word := (imm ++ 0#2).signExtend 32

/-- The target of a conditional branch: `pc + 4 + IndSaltoCond` (R180). -/
def State.branchTarget (s : State) (imm : Half) : Word := s.pc + 4#32 + branchOffset imm

/-- The target of `j` and `jal`: `{(pc + 4)[31:28], address, 0b00}` (R12, R180). -/
def State.jumpTarget (s : State) (address : BitVec 26) : Word := (s.pc + 4#32).extractLsb' 28 4 ++ address ++ 0#2

/-- The link value of `jal` and `jalr`: the address after the delay slot (R180). -/
def State.linkValue (s : State) : Word := s.pc + 8#32

/-- The address of a load or store: base plus displacement, modulo 2^32 (R200, R322). -/
def State.effectiveAddress (s : State) (rs : RegNum) (imm : Half) : Word := s.x rs + signedImm imm

/-- The shift amount a register gives: its low five bits (R162). -/
def shiftAmount (v : Word) : Nat := (v.extractLsb' 0 5).toNat

/-- The aligned word that holds an address: `addr & 0xFFFFFFFC` (R211, R212). -/
def alignedWord (addr : Word) : Word := addr.extractLsb' 2 30 ++ 0#2

/-- The place of a byte in its aligned word: `addr[1:0]` (R211 to R214). -/
def byteInWord (addr : Word) : Nat := (addr.extractLsb' 0 2).toNat

/-- `run`, when every register that names a double is even; else refused (R31, R254). -/
def withDoubles (names : List RegNum) (run : Result) : Result :=
  if names.all evenReg then run else .refused .oddDoubleRegister

end Sys2Proof.Machine
end

