-- ==== Sys2Proof/Machine/ControlTransfer.lean ====
section
/-! DEFINITION. The meanings of the branches and jumps of the integer unit (41_control_transfer.md); `bc1t` and `bc1f`
are in FloatingPoint. -/

namespace Sys2Proof.Machine

/-- `beq` (R182) -/
def execBeq (rs rt : RegNum) (imm : Half) (s : State) : Result :=
  s.branch (decide (s.x rs = s.x rt)) (s.branchTarget imm)

/-- `bne` (R183) -/
def execBne (rs rt : RegNum) (imm : Half) (s : State) : Result :=
  s.branch (decide (s.x rs ≠ s.x rt)) (s.branchTarget imm)

/-- `j` (R184) -/
def execJ (address : BitVec 26) (s : State) : Result := s.branch true (s.jumpTarget address)

/-- `jal` (R185) -/
def execJal (address : BitVec 26) (s : State) : Result := (s.setX 31#5 s.linkValue).branch true (s.jumpTarget address)

/-- `jr` (R186) -/
def execJr (rs : RegNum) (s : State) : Result := s.branch true (s.x rs)

/-- `blez` (R187) -/
def execBlez (rs : RegNum) (imm : Half) (s : State) : Result :=
  s.branch (decide ((s.x rs).toInt ≤ 0)) (s.branchTarget imm)

/-- `bgtz` (R188) -/
def execBgtz (rs : RegNum) (imm : Half) (s : State) : Result :=
  s.branch (decide (0 < (s.x rs).toInt)) (s.branchTarget imm)

/-- `jalr` (R189) -/
def execJalr (rd rs : RegNum) (s : State) : Result :=
  if s.inDs then .refused .transferInDelaySlot
  else if linkAllowed rd rs then (s.setX rd s.linkValue).branch true (s.x rs)
  else .refused .jalrLinkIsTarget

end Sys2Proof.Machine
end

