-- ==== Sys2Proof/Machine/FpArith.lean ====
section
/-! DEFINITION. IEEE 754 single and double arithmetic as 44_floating_point.md states it (R249 to R270, R283, R284,
R289): a pattern is a natural number, its value is exact, and one function rounds. An operation that has no value, or
that has a NaN operand, answers `none`: the NaN it produces is a draw (R254). -/

namespace Sys2Proof.Machine

/-! ### The two formats (R250) -/

/-- Bits of the fraction field: precision minus one (R250). -/
def fracBits (fmt : FpFormat) : Nat :=
  match fmt with
  | .single => 23
  | .double => 52

/-- Bits of the exponent field (R250). -/
def expBits (fmt : FpFormat) : Nat :=
  match fmt with
  | .single => 8
  | .double => 11

/-- MAX, the largest exponent field (R250). -/
def maxExp (fmt : FpFormat) : Nat := 2 ^ expBits fmt - 1

/-- The bias, which is also `emax` (R250). -/
def bias (fmt : FpFormat) : Nat := 2 ^ (expBits fmt - 1) - 1

/-- `emin`, the exponent of the smallest normal numbers and of the denormals (R250, R252). -/
def emin (fmt : FpFormat) : Int := 1 - (bias fmt : Int)

/-- The pattern with these sign, exponent and fraction fields (R250). -/
def fpPack (fmt : FpFormat) (neg : Bool) (e f : Nat) : Nat :=
  ((if neg then 2 ^ expBits fmt else 0) + e) * 2 ^ fracBits fmt + f

/-- The sign of a pattern (R250). -/
def fpSign (fmt : FpFormat) (w : Nat) : Bool := w / 2 ^ (expBits fmt + fracBits fmt) % 2 == 1

/-- The exponent field of a pattern (R250). -/
def fpExpField (fmt : FpFormat) (w : Nat) : Nat := w / 2 ^ fracBits fmt % 2 ^ expBits fmt

/-- The fraction field of a pattern (R250). -/
def fpFracField (fmt : FpFormat) (w : Nat) : Nat := w % 2 ^ fracBits fmt

/-! ### The value of a pattern (R251, R252) -/

/-- What a pattern means (R251). A finite number that is not zero is `± m × 2^e`, exactly. -/
inductive FpValue where
  | nan
  | inf (neg : Bool)
  | zero (neg : Bool)
  | finite (neg : Bool) (m : Nat) (e : Int)
  deriving DecidableEq, Repr

/-- The meaning and value of a pattern (R251, R252). -/
def fpValue (fmt : FpFormat) (w : Nat) : FpValue :=
  let neg := fpSign fmt w
  let e := fpExpField fmt w
  let f := fpFracField fmt w
  if e = maxExp fmt then (if f = 0 then .inf neg else .nan)
  else if e = 0 then (if f = 0 then .zero neg else .finite neg f (emin fmt - fracBits fmt))
  else .finite neg (2 ^ fracBits fmt + f) ((e : Int) - bias fmt - fracBits fmt)

/-- The sign of a value; of no use for a NaN. -/
def valueSign (v : FpValue) : Bool :=
  match v with
  | .nan => false
  | .inf neg => neg
  | .zero neg => neg
  | .finite neg _ _ => neg

/-- An integer with a sign. -/
def signedInt (neg : Bool) (m : Nat) : Int := if neg then -(m : Int) else m

/-- The pattern of an infinity (R251). -/
def fpInf (fmt : FpFormat) (neg : Bool) : Nat := fpPack fmt neg (maxExp fmt) 0

/-- The pattern of a zero (R251). -/
def fpZero (fmt : FpFormat) (neg : Bool) : Nat := fpPack fmt neg 0 0

/-- The pattern of a NaN chosen by any sign and any number: every NaN pattern of the format is one of these (R251). -/
def fpNaNPattern (fmt : FpFormat) (neg : Bool) (n : Nat) : Nat :=
  fpPack fmt neg (maxExp fmt) (n % (2 ^ fracBits fmt - 1) + 1)

/-! ### Rounding (R253) -/

/-- `floor(log2 (n / d))` for positive `n` and `d`. -/
def floorLog2 (n d : Nat) : Int :=
  let k : Int := (Nat.log2 n : Int) - Nat.log2 d
  if d * 2 ^ k.toNat ≤ n * 2 ^ (-k).toNat then k else k - 1

/-- `n / d` rounded to a natural number, to nearest, a tie to the even one. -/
def roundNearestEven (n d : Nat) : Nat :=
  let q := n / d
  let r := n % d
  if d < 2 * r || (2 * r == d && q % 2 == 1) then q + 1 else q

/-- The exponent `e` of R253: `max(floor(log2 a), emin)` for `a = n / d`. -/
def roundExponent (fmt : FpFormat) (n d : Nat) : Int := max (floorLog2 n d) (emin fmt)

/-- The integer `m` of R253: `a / 2^(e - p + 1)` for `a = n / d`, rounded to nearest, ties to even. -/
def roundMantissa (fmt : FpFormat) (n d : Nat) : Nat :=
  let k := roundExponent fmt n d - fracBits fmt
  roundNearestEven (n * 2 ^ (-k).toNat) (d * 2 ^ k.toNat)

/-- The last lines of R253: the pattern of `m × 2^(e - p + 1)`, or of an infinity. -/
def roundFinish (fmt : FpFormat) (neg : Bool) (m : Nat) (e : Int) : Nat :=
  if (bias fmt : Int) < e then fpInf fmt neg
  else if m < 2 ^ fracBits fmt then fpPack fmt neg 0 m
  else fpPack fmt neg (e + bias fmt).toNat (m - 2 ^ fracBits fmt)

/-- `round_fmt` for the magnitude `n / d`, both positive, and a sign (R253). -/
def roundMagnitude (fmt : FpFormat) (neg : Bool) (n d : Nat) : Nat :=
  let e := roundExponent fmt n d
  let m := roundMantissa fmt n d
  if m = 2 ^ (fracBits fmt + 1) then roundFinish fmt neg (2 ^ fracBits fmt) (e + 1) else roundFinish fmt neg m e

/-- `round_fmt(m × 2^e, zs)` (R253). -/
def roundScaled (fmt : FpFormat) (m : Int) (e : Int) (zs : Bool) : Nat :=
  if m = 0 then fpZero fmt zs
  else roundMagnitude fmt (decide (m < 0)) (m.natAbs * 2 ^ e.toNat) (2 ^ (-e).toNat)

/-! ### Arithmetic -/

/-- The exact sum of `ma × 2^ea` and `mb × 2^eb`: an integer times a power of two. -/
def exactSum (ma : Int) (ea : Int) (mb : Int) (eb : Int) : Int × Int :=
  let e := min ea eb
  (ma * 2 ^ (ea - e).toNat + mb * 2 ^ (eb - e).toNat, e)

/-- `fp_add_fmt` on values (R255); an operand that is returned as it is goes through its own rounding, which is exact. -/
def addValues (fmt : FpFormat) (a b : FpValue) : Option Nat :=
  match a, b with
  | .nan, _ => none
  | _, .nan => none
  | .inf na, .inf nb => if na = nb then some (fpInf fmt na) else none
  | .inf na, _ => some (fpInf fmt na)
  | _, .inf nb => some (fpInf fmt nb)
  | .zero na, .zero nb => some (fpZero fmt (na && nb))
  | .zero _, .finite nb mb eb => some (roundScaled fmt (signedInt nb mb) eb false)
  | .finite na ma ea, .zero _ => some (roundScaled fmt (signedInt na ma) ea false)
  | .finite na ma ea, .finite nb mb eb =>
    let sum := exactSum (signedInt na ma) ea (signedInt nb mb) eb
    some (roundScaled fmt sum.1 sum.2 false)

/-- `fp_mul_fmt` on values (R259). -/
def mulValues (fmt : FpFormat) (a b : FpValue) : Option Nat :=
  match a, b with
  | .nan, _ => none
  | _, .nan => none
  | .inf _, .zero _ => none
  | .zero _, .inf _ => none
  | .inf na, .inf nb => some (fpInf fmt (na ^^ nb))
  | .inf na, .finite nb _ _ => some (fpInf fmt (na ^^ nb))
  | .finite na _ _, .inf nb => some (fpInf fmt (na ^^ nb))
  | .zero na, .zero nb => some (fpZero fmt (na ^^ nb))
  | .zero na, .finite nb _ _ => some (fpZero fmt (na ^^ nb))
  | .finite na _ _, .zero nb => some (fpZero fmt (na ^^ nb))
  | .finite na ma ea, .finite nb mb eb =>
    some (roundScaled fmt (signedInt na ma * signedInt nb mb) (ea + eb) (na ^^ nb))

/-- `fp_div_fmt` on values (R261). -/
def divValues (fmt : FpFormat) (a b : FpValue) : Option Nat :=
  match a, b with
  | .nan, _ => none
  | _, .nan => none
  | .inf _, .inf _ => none
  | .zero _, .zero _ => none
  | .inf na, .zero nb => some (fpInf fmt (na ^^ nb))
  | .inf na, .finite nb _ _ => some (fpInf fmt (na ^^ nb))
  | .zero na, .inf nb => some (fpZero fmt (na ^^ nb))
  | .finite na _ _, .inf nb => some (fpZero fmt (na ^^ nb))
  | .finite na _ _, .zero nb => some (fpInf fmt (na ^^ nb))
  | .zero na, .finite nb _ _ => some (fpZero fmt (na ^^ nb))
  | .finite na ma ea, .finite nb mb eb =>
    some (roundMagnitude fmt (na ^^ nb) (ma * 2 ^ (ea - eb).toNat) (mb * 2 ^ (eb - ea).toNat))

/-- Bit by bit from bit `i - 1` down: the largest `r' ≥ r` with `r' * r' ≤ n` that differs from `r` in those bits. -/
def sqrtBits (n : Nat) : Nat → Nat → Nat
  | 0, r => r
  | i + 1, r => sqrtBits n i (if (r + 2 ^ i) * (r + 2 ^ i) ≤ n then r + 2 ^ i else r)

/-- The largest natural number whose square is at most `n`. -/
def natSqrt (n : Nat) : Nat := sqrtBits n (Nat.log2 n / 2 + 1) 0

/-- `round_fmt` of the exact square root of `m × 2^e`, `m` positive (R263). The root is taken of `m` scaled by a power
of four so that it has more than `p + 2` bits; one more bit tells whether anything is left over, which no rounding of R253
can tell from the exact root (log entry 26). -/
def sqrtMagnitude (fmt : FpFormat) (m : Nat) (e : Int) : Nat :=
  let k := fracBits fmt + 3
  let half := (e - e % 2) / 2
  let scaled := m * 2 ^ (e % 2).toNat * 4 ^ k
  let r := natSqrt scaled
  let root := 2 * r + (if r * r = scaled then 0 else 1)
  roundScaled fmt root (half - k - 1) false

/-- `fp_sqrt_fmt` on values (R263). -/
def sqrtValue (fmt : FpFormat) (a : FpValue) : Option Nat :=
  match a with
  | .nan => none
  | .zero neg => some (fpZero fmt neg)
  | .inf neg => if neg then none else some (fpInf fmt false)
  | .finite neg m e => if neg then none else some (sqrtMagnitude fmt m e)

/-- The conversion of a value to a format (R283, R284). -/
def convertValue (fmt : FpFormat) (a : FpValue) : Option Nat :=
  match a with
  | .nan => none
  | .inf neg => some (fpInf fmt neg)
  | .zero neg => some (fpZero fmt neg)
  | .finite neg m e => some (roundScaled fmt (signedInt neg m) e false)

/-- `fp_add_fmt` on patterns (R255). -/
def fpAdd (fmt : FpFormat) (a b : Nat) : Option Nat := addValues fmt (fpValue fmt a) (fpValue fmt b)

/-- The sign bit of a value inverted (R257). -/
def negateValue (v : FpValue) : FpValue :=
  match v with
  | .nan => .nan
  | .inf neg => .inf (!neg)
  | .zero neg => .zero (!neg)
  | .finite neg m e => .finite (!neg) m e

/-- `fp_sub_fmt` on patterns: the sum with the sign of the second operand inverted (R257). -/
def fpSub (fmt : FpFormat) (a b : Nat) : Option Nat := addValues fmt (fpValue fmt a) (negateValue (fpValue fmt b))

/-- `fp_mul_fmt` on patterns (R259). -/
def fpMul (fmt : FpFormat) (a b : Nat) : Option Nat := mulValues fmt (fpValue fmt a) (fpValue fmt b)

/-- `fp_div_fmt` on patterns (R261). -/
def fpDiv (fmt : FpFormat) (a b : Nat) : Option Nat := divValues fmt (fpValue fmt a) (fpValue fmt b)

/-- `fp_sqrt_fmt` on patterns (R263). -/
def fpSqrt (fmt : FpFormat) (a : Nat) : Option Nat := sqrtValue fmt (fpValue fmt a)

/-- The absolute value of a pattern: sign bit cleared (R265). -/
def fpAbs (fmt : FpFormat) (a : Nat) : Option Nat :=
  if fpValue fmt a = .nan then none else some (fpPack fmt false (fpExpField fmt a) (fpFracField fmt a))

/-- The negation of a pattern: sign bit inverted (R269). -/
def fpNeg (fmt : FpFormat) (a : Nat) : Option Nat :=
  if fpValue fmt a = .nan then none
  else some (fpPack fmt (!fpSign fmt a) (fpExpField fmt a) (fpFracField fmt a))

/-- The conversion of a pattern from one format to another (R283, R284). -/
def fpConvert (src dst : FpFormat) (a : Nat) : Option Nat := convertValue dst (fpValue src a)

/-! ### Conversion to a word (R249) -/

/-- The four ways to round to an integer (R249). -/
inductive IntRounding where
  | nearest
  | zero
  | up
  | down
  deriving DecidableEq, Repr

/-- `± n / d` rounded to an integer (R249). -/
def roundToInt (mode : IntRounding) (neg : Bool) (n d : Nat) : Int :=
  match mode with
  | .nearest => signedInt neg (roundNearestEven n d)
  | .zero => signedInt neg (n / d)
  | .up => -(signedInt (!neg) n / (d : Int))
  | .down => signedInt neg n / (d : Int)

/-- The integer of a value, `none` for a NaN and an infinity (R249). -/
def valueToInt (mode : IntRounding) (v : FpValue) : Option Int :=
  match v with
  | .nan => none
  | .inf _ => none
  | .zero _ => some 0
  | .finite neg m e => some (roundToInt mode neg (m * 2 ^ e.toNat) (2 ^ (-e).toNat))

/-- `to_word`: `none` when the value does not fit, and the word is a draw (R249). -/
def toWord (fmt : FpFormat) (mode : IntRounding) (a : Nat) : Option Word :=
  match valueToInt mode (fpValue fmt a) with
  | none => none
  | some n => if n < -2 ^ 31 ∨ 2 ^ 31 - 1 < n then none else some (BitVec.ofInt 32 n)

/-! ### Comparison (R289) -/

/-- The four relations between two patterns, of which exactly one holds (R289). -/
inductive FpRelation where
  | less
  | equal
  | greater
  | unordered
  deriving DecidableEq, Repr

/-- The relation between two exact integers. -/
def intRelation (a b : Int) : FpRelation := if a < b then .less else if a = b then .equal else .greater

/-- The mantissa of a number as a signed integer; zero for a zero. -/
def valueMantissa (v : FpValue) : Int :=
  match v with
  | .finite neg m _ => signedInt neg m
  | .nan => 0
  | .inf _ => 0
  | .zero _ => 0

/-- The exponent that goes with `valueMantissa`. -/
def valueExponent (v : FpValue) : Int :=
  match v with
  | .finite _ _ e => e
  | .nan => 0
  | .inf _ => 0
  | .zero _ => 0

/-- The relation between two numbers that are not infinite: their difference against zero. -/
def finiteRelation (a b : FpValue) : FpRelation :=
  intRelation (exactSum (valueMantissa a) (valueExponent a) (-valueMantissa b) (valueExponent b)).1 0

/-- The place of a value among -inf, the finite numbers, +inf. -/
def infRank (v : FpValue) : Int :=
  match v with
  | .inf neg => if neg then -1 else 1
  | .nan => 0
  | .zero _ => 0
  | .finite _ _ _ => 0

/-- `fp_compare_fmt` on values (R289). -/
def compareValues (a b : FpValue) : FpRelation :=
  if a = .nan ∨ b = .nan then .unordered
  else if infRank a = 0 ∧ infRank b = 0 then finiteRelation a b
  else intRelation (infRank a) (infRank b)

/-- `fp_compare_fmt` on patterns (R289). -/
def fpCompare (fmt : FpFormat) (a b : Nat) : FpRelation := compareValues (fpValue fmt a) (fpValue fmt b)

end Sys2Proof.Machine
end

