-- ==== Sys2Proof/Machine/Flags.lean ====
section
/-! DEFINITION. The flag computations: signed overflow, which raises Ov (40_integer_alu.md R167), and the one
condition code `FPcond` (44_floating_point.md R289). The integer unit has no flags (10_state.md R29). -/

namespace Sys2Proof.Machine

/-- The exact integer lies outside the 32-bit signed range (R141, R167). -/
def overflows (n : Int) : Bool := decide (n < -2 ^ 31) || decide (2 ^ 31 - 1 < n)

/-- The signed sum, or `none` on overflow (R141, R142, R167). -/
def addSigned (a b : Word) : Option Word :=
  if overflows (a.toInt + b.toInt) then none else some (BitVec.ofInt 32 (a.toInt + b.toInt))

/-- The signed difference, or `none` on overflow (R157, R167). -/
def subSigned (a b : Word) : Option Word :=
  if overflows (a.toInt - b.toInt) then none else some (BitVec.ofInt 32 (a.toInt - b.toInt))

/-- A comparison's result: 1 or 0 (R151, R168). -/
def boolWord (b : Bool) : Word := if b then 1#32 else 0#32

/-- `FPcond` from the bits `cond` of a compare and the relation of its operands (R289). Bit 3 has no effect. -/
def fpPredicate (cond : BitVec 4) (rel : FpRelation) : Bool :=
  (cond.getLsbD 2 && rel == .less) || (cond.getLsbD 1 && rel == .equal) || (cond.getLsbD 0 && rel == .unordered)

end Sys2Proof.Machine
end

