-- ==== Sys2Proof/Machine/FloatingPoint.lean ====
section
/-! DEFINITION. The meanings of the floating-point unit, coprocessor 1 (44_floating_point.md). -/

namespace Sys2Proof.Machine

/-- The NaN an operation produces in this step: a draw among the NaN patterns of the format (R254, U4). -/
def State.drawnNaN (s : State) (op : FpOp) (fmt : FpFormat) (operands : List Dword) : Nat :=
  fpNaNPattern fmt (Config.fpNaN s.time op fmt operands).1 (Config.fpNaN s.time op fmt operands).2

/-- The pattern an operation gives: its value's, or a drawn NaN (R254). -/
def State.valueOrNaN (s : State) (op : FpOp) (fmt : FpFormat) (operands : List Dword) (r : Option Nat) : Nat :=
  r.getD (s.drawnNaN op fmt operands)

/-- A single-precision operation of two operands (R254, R255). -/
def fpBinaryS (op : FpOp) (f : Nat → Nat → Option Nat) (fd fs ft : RegNum) (s : State) : Result :=
  retire (s.setF fd (BitVec.ofNat 32 (s.valueOrNaN op .single [(s.f fs).zeroExtend 64, (s.f ft).zeroExtend 64]
    (f (s.f fs).toNat (s.f ft).toNat))))

/-- A double-precision operation of two operands (R254, R256). -/
def fpBinaryD (op : FpOp) (f : Nat → Nat → Option Nat) (fd fs ft : RegNum) (s : State) : Result :=
  withDoubles [fd, fs, ft] (retire (s.setFd64 fd (BitVec.ofNat 64 (s.valueOrNaN op .double [s.fd64 fs, s.fd64 ft]
    (f (s.fd64 fs).toNat (s.fd64 ft).toNat)))))

/-- A single-precision operation of one operand (R254, R263). -/
def fpUnaryS (op : FpOp) (f : Nat → Option Nat) (fd fs : RegNum) (s : State) : Result :=
  retire (s.setF fd (BitVec.ofNat 32 (s.valueOrNaN op .single [(s.f fs).zeroExtend 64] (f (s.f fs).toNat))))

/-- A double-precision operation of one operand (R254, R264). -/
def fpUnaryD (op : FpOp) (f : Nat → Option Nat) (fd fs : RegNum) (s : State) : Result :=
  withDoubles [fd, fs] (retire (s.setFd64 fd (BitVec.ofNat 64 (s.valueOrNaN op .double [s.fd64 fs]
    (f (s.fd64 fs).toNat)))))

/-- The word a conversion gives: the rounded value, or a draw when it does not fit (R249, U5). -/
def State.wordOrInvalid (s : State) (op : FpOp) (fmt : FpFormat) (operand : Dword) (r : Option Word) : Word :=
  r.getD (Config.fpToIntInvalid s.time op fmt operand)

/-- A conversion of a single to a word (R249, R271). -/
def fpToWordS (op : FpOp) (mode : IntRounding) (fd fs : RegNum) (s : State) : Result :=
  retire (s.setF fd (s.wordOrInvalid op .single ((s.f fs).zeroExtend 64) (toWord .single mode (s.f fs).toNat)))

/-- A conversion of a double to a word (R249, R272). -/
def fpToWordD (op : FpOp) (mode : IntRounding) (fd fs : RegNum) (s : State) : Result :=
  withDoubles [fs]
    (retire (s.setF fd (s.wordOrInvalid op .double (s.fd64 fs) (toWord .double mode (s.fd64 fs).toNat))))

/-- A compare of two singles (R289). -/
def fpCompareS (cond : BitVec 4) (fs ft : RegNum) (s : State) : Result :=
  retire (s.setFpcond (fpPredicate cond (fpCompare .single (s.f fs).toNat (s.f ft).toNat)))

/-- A compare of two doubles (R289). -/
def fpCompareD (cond : BitVec 4) (fs ft : RegNum) (s : State) : Result :=
  withDoubles [fs, ft] (retire (s.setFpcond (fpPredicate cond (fpCompare .double (s.fd64 fs).toNat (s.fd64 ft).toNat))))

/-- `add.s` (R255) -/
def execAddS (fd fs ft : RegNum) (s : State) : Result := fpBinaryS .add (fpAdd .single) fd fs ft s

/-- `add.d` (R256) -/
def execAddD (fd fs ft : RegNum) (s : State) : Result := fpBinaryD .add (fpAdd .double) fd fs ft s

/-- `sub.s` (R257) -/
def execSubS (fd fs ft : RegNum) (s : State) : Result := fpBinaryS .sub (fpSub .single) fd fs ft s

/-- `sub.d` (R258) -/
def execSubD (fd fs ft : RegNum) (s : State) : Result := fpBinaryD .sub (fpSub .double) fd fs ft s

/-- `mul.s` (R259) -/
def execMulS (fd fs ft : RegNum) (s : State) : Result := fpBinaryS .mul (fpMul .single) fd fs ft s

/-- `mul.d` (R260) -/
def execMulD (fd fs ft : RegNum) (s : State) : Result := fpBinaryD .mul (fpMul .double) fd fs ft s

/-- `div.s` (R261) -/
def execDivS (fd fs ft : RegNum) (s : State) : Result := fpBinaryS .div (fpDiv .single) fd fs ft s

/-- `div.d` (R262) -/
def execDivD (fd fs ft : RegNum) (s : State) : Result := fpBinaryD .div (fpDiv .double) fd fs ft s

/-- `sqrt.s` (R263) -/
def execSqrtS (fd fs : RegNum) (s : State) : Result := fpUnaryS .sqrt (fpSqrt .single) fd fs s

/-- `sqrt.d` (R264) -/
def execSqrtD (fd fs : RegNum) (s : State) : Result := fpUnaryD .sqrt (fpSqrt .double) fd fs s

/-- `abs.s` (R265) -/
def execAbsS (fd fs : RegNum) (s : State) : Result := fpUnaryS .abs (fpAbs .single) fd fs s

/-- `abs.d` (R266) -/
def execAbsD (fd fs : RegNum) (s : State) : Result := fpUnaryD .abs (fpAbs .double) fd fs s

/-- `mov.s` (R267) -/
def execMovS (fd fs : RegNum) (s : State) : Result := retire (s.setF fd (s.f fs))

/-- `mov.d` (R268) -/
def execMovD (fd fs : RegNum) (s : State) : Result := withDoubles [fd, fs] (retire (s.setFd64 fd (s.fd64 fs)))

/-- `neg.s` (R269) -/
def execNegS (fd fs : RegNum) (s : State) : Result := fpUnaryS .neg (fpNeg .single) fd fs s

/-- `neg.d` (R270) -/
def execNegD (fd fs : RegNum) (s : State) : Result := fpUnaryD .neg (fpNeg .double) fd fs s

/-- `round.w.s` (R271) -/
def execRoundWS (fd fs : RegNum) (s : State) : Result := fpToWordS .round .nearest fd fs s

/-- `round.w.d` (R272) -/
def execRoundWD (fd fs : RegNum) (s : State) : Result := fpToWordD .round .nearest fd fs s

/-- `trunc.w.s` (R273) -/
def execTruncWS (fd fs : RegNum) (s : State) : Result := fpToWordS .trunc .zero fd fs s

/-- `trunc.w.d` (R274) -/
def execTruncWD (fd fs : RegNum) (s : State) : Result := fpToWordD .trunc .zero fd fs s

/-- `ceil.w.s` (R275) -/
def execCeilWS (fd fs : RegNum) (s : State) : Result := fpToWordS .ceil .up fd fs s

/-- `ceil.w.d` (R276) -/
def execCeilWD (fd fs : RegNum) (s : State) : Result := fpToWordD .ceil .up fd fs s

/-- `floor.w.s` (R277) -/
def execFloorWS (fd fs : RegNum) (s : State) : Result := fpToWordS .floor .down fd fs s

/-- `floor.w.d` (R278) -/
def execFloorWD (fd fs : RegNum) (s : State) : Result := fpToWordD .floor .down fd fs s

/-- `movz.s` (R279) -/
def execMovzS (fd fs rt : RegNum) (s : State) : Result := retire (if s.x rt = 0#32 then s.setF fd (s.f fs) else s)

/-- `movz.d` (R280) -/
def execMovzD (fd fs rt : RegNum) (s : State) : Result :=
  withDoubles [fd, fs] (retire (if s.x rt = 0#32 then s.setFd64 fd (s.fd64 fs) else s))

/-- `movn.s` (R281) -/
def execMovnS (fd fs rt : RegNum) (s : State) : Result := retire (if s.x rt = 0#32 then s else s.setF fd (s.f fs))

/-- `movn.d` (R282) -/
def execMovnD (fd fs rt : RegNum) (s : State) : Result :=
  withDoubles [fd, fs] (retire (if s.x rt = 0#32 then s else s.setFd64 fd (s.fd64 fs)))

/-- `cvt.s.d` (R283) -/
def execCvtSD (fd fs : RegNum) (s : State) : Result :=
  withDoubles [fs]
    (retire (s.setF fd (BitVec.ofNat 32
      (s.valueOrNaN .convert .single [s.fd64 fs] (fpConvert .double .single (s.fd64 fs).toNat)))))

/-- `cvt.d.s` (R284) -/
def execCvtDS (fd fs : RegNum) (s : State) : Result :=
  withDoubles [fd]
    (retire (s.setFd64 fd (BitVec.ofNat 64
      (s.valueOrNaN .convert .double [(s.f fs).zeroExtend 64] (fpConvert .single .double (s.f fs).toNat)))))

/-- `cvt.w.s` (R285) -/
def execCvtWS (fd fs : RegNum) (s : State) : Result := fpToWordS .cvtW .nearest fd fs s

/-- `cvt.w.d` (R286) -/
def execCvtWD (fd fs : RegNum) (s : State) : Result := fpToWordD .cvtW .nearest fd fs s

/-- `cvt.s.s` (R287) -/
def execCvtSS (_fd _fs : RegNum) (_s : State) : Result := .refused .sameFormatConversion

/-- `cvt.d.d` (R288) -/
def execCvtDD (_fd _fs : RegNum) (_s : State) : Result := .refused .sameFormatConversion

/-- `c.f.s` (R290) -/
def execCFS (fs ft : RegNum) (s : State) : Result := fpCompareS 0#4 fs ft s

/-- `c.f.d` (R291) -/
def execCFD (fs ft : RegNum) (s : State) : Result := fpCompareD 0#4 fs ft s

/-- `c.un.s` (R292) -/
def execCUnS (fs ft : RegNum) (s : State) : Result := fpCompareS 1#4 fs ft s

/-- `c.un.d` (R293) -/
def execCUnD (fs ft : RegNum) (s : State) : Result := fpCompareD 1#4 fs ft s

/-- `c.eq.s` (R294) -/
def execCEqS (fs ft : RegNum) (s : State) : Result := fpCompareS 2#4 fs ft s

/-- `c.eq.d` (R295) -/
def execCEqD (fs ft : RegNum) (s : State) : Result := fpCompareD 2#4 fs ft s

/-- `c.ueq.s` (R296) -/
def execCUeqS (fs ft : RegNum) (s : State) : Result := fpCompareS 3#4 fs ft s

/-- `c.ueq.d` (R297) -/
def execCUeqD (fs ft : RegNum) (s : State) : Result := fpCompareD 3#4 fs ft s

/-- `c.olt.s` (R298) -/
def execCOltS (fs ft : RegNum) (s : State) : Result := fpCompareS 4#4 fs ft s

/-- `c.olt.d` (R299) -/
def execCOltD (fs ft : RegNum) (s : State) : Result := fpCompareD 4#4 fs ft s

/-- `c.ult.s` (R300) -/
def execCUltS (fs ft : RegNum) (s : State) : Result := fpCompareS 5#4 fs ft s

/-- `c.ult.d` (R301) -/
def execCUltD (fs ft : RegNum) (s : State) : Result := fpCompareD 5#4 fs ft s

/-- `c.ole.s` (R302) -/
def execCOleS (fs ft : RegNum) (s : State) : Result := fpCompareS 6#4 fs ft s

/-- `c.ole.d` (R303) -/
def execCOleD (fs ft : RegNum) (s : State) : Result := fpCompareD 6#4 fs ft s

/-- `c.ule.s` (R304) -/
def execCUleS (fs ft : RegNum) (s : State) : Result := fpCompareS 7#4 fs ft s

/-- `c.ule.d` (R305) -/
def execCUleD (fs ft : RegNum) (s : State) : Result := fpCompareD 7#4 fs ft s

/-- `c.sf.s` (R306) -/
def execCSfS (fs ft : RegNum) (s : State) : Result := fpCompareS 8#4 fs ft s

/-- `c.sf.d` (R307) -/
def execCSfD (fs ft : RegNum) (s : State) : Result := fpCompareD 8#4 fs ft s

/-- `c.ngle.s` (R308) -/
def execCNgleS (fs ft : RegNum) (s : State) : Result := fpCompareS 9#4 fs ft s

/-- `c.ngle.d` (R309) -/
def execCNgleD (fs ft : RegNum) (s : State) : Result := fpCompareD 9#4 fs ft s

/-- `c.seq.s` (R310) -/
def execCSeqS (fs ft : RegNum) (s : State) : Result := fpCompareS 10#4 fs ft s

/-- `c.seq.d` (R311) -/
def execCSeqD (fs ft : RegNum) (s : State) : Result := fpCompareD 10#4 fs ft s

/-- `c.ngl.s` (R312) -/
def execCNglS (fs ft : RegNum) (s : State) : Result := fpCompareS 11#4 fs ft s

/-- `c.ngl.d` (R313) -/
def execCNglD (fs ft : RegNum) (s : State) : Result := fpCompareD 11#4 fs ft s

/-- `c.lt.s` (R314) -/
def execCLtS (fs ft : RegNum) (s : State) : Result := fpCompareS 12#4 fs ft s

/-- `c.lt.d` (R315) -/
def execCLtD (fs ft : RegNum) (s : State) : Result := fpCompareD 12#4 fs ft s

/-- `c.nge.s` (R316) -/
def execCNgeS (fs ft : RegNum) (s : State) : Result := fpCompareS 13#4 fs ft s

/-- `c.nge.d` (R317) -/
def execCNgeD (fs ft : RegNum) (s : State) : Result := fpCompareD 13#4 fs ft s

/-- `c.le.s` (R318) -/
def execCLeS (fs ft : RegNum) (s : State) : Result := fpCompareS 14#4 fs ft s

/-- `c.le.d` (R319) -/
def execCLeD (fs ft : RegNum) (s : State) : Result := fpCompareD 14#4 fs ft s

/-- `c.ngt.s` (R320) -/
def execCNgtS (fs ft : RegNum) (s : State) : Result := fpCompareS 15#4 fs ft s

/-- `c.ngt.d` (R321) -/
def execCNgtD (fs ft : RegNum) (s : State) : Result := fpCompareD 15#4 fs ft s

/-- `lwc1` (R323) -/
def execLwc1 (ft rs : RegNum) (imm : Half) (s : State) : Result :=
  let a := s.effectiveAddress rs imm
  s.access .load 4 a a 4 (retire (s.setF ft (s.read32 a)))

/-- `ldc1` (R324) -/
def execLdc1 (ft rs : RegNum) (imm : Half) (s : State) : Result :=
  let a := s.effectiveAddress rs imm
  withDoubles [ft] (s.access .load 8 a a 8 (retire (s.setFd64 ft (s.read32 a ++ s.read32 (a + 4#32)))))

/-- `swc1` (R325) -/
def execSwc1 (ft rs : RegNum) (imm : Half) (s : State) : Result :=
  let a := s.effectiveAddress rs imm
  s.access .store 4 a a 4 (retire (s.write32 a (s.f ft)))

/-- `sdc1` (R326) -/
def execSdc1 (ft rs : RegNum) (imm : Half) (s : State) : Result :=
  let a := s.effectiveAddress rs imm
  withDoubles [ft]
    (s.access .store 8 a a 8 (retire ((s.write32 a (s.f ft)).write32 (a + 4#32) (s.f (ft + 1#5)))))

/-- `bc1t` (R327) -/
def execBc1t (imm : Half) (s : State) : Result := s.branch s.fpcond (s.branchTarget imm)

/-- `bc1f` (R328) -/
def execBc1f (imm : Half) (s : State) : Result := s.branch (!s.fpcond) (s.branchTarget imm)

end Sys2Proof.Machine
end

