-- ==== Sys2Proof/Machine/IntegerAlu.lean ====
section
/-! DEFINITION. The meanings of the integer arithmetic, logic, shift, compare and conditional-move instructions
(40_integer_alu.md). -/

namespace Sys2Proof.Machine

/-- An arithmetic result that may overflow: Ov, with nothing written, or the register written (R141, R167). -/
def overflowing (rd : RegNum) (result : Option Word) (s : State) : Result :=
  match result with
  | none => s.raise .ov
  | some v => retire (s.setX rd v)

/-- `add` (R141) -/
def execAdd (rd rs rt : RegNum) (s : State) : Result := overflowing rd (addSigned (s.x rs) (s.x rt)) s

/-- `addi` (R142) -/
def execAddi (rt rs : RegNum) (imm : Half) (s : State) : Result :=
  overflowing rt (addSigned (s.x rs) (signedImm imm)) s

/-- `addiu` (R143) -/
def execAddiu (rt rs : RegNum) (imm : Half) (s : State) : Result := retire (s.setX rt (s.x rs + signedImm imm))

/-- `addu` (R144) -/
def execAddu (rd rs rt : RegNum) (s : State) : Result := retire (s.setX rd (s.x rs + s.x rt))

/-- `and` (R145) -/
def execAnd (rd rs rt : RegNum) (s : State) : Result := retire (s.setX rd (s.x rs &&& s.x rt))

/-- `andi` (R146) -/
def execAndi (rt rs : RegNum) (imm : Half) (s : State) : Result := retire (s.setX rt (s.x rs &&& zeroImm imm))

/-- `lui` (R147) -/
def execLui (rt : RegNum) (imm : Half) (s : State) : Result := retire (s.setX rt (imm ++ 0#16))

/-- `nor` (R148) -/
def execNor (rd rs rt : RegNum) (s : State) : Result := retire (s.setX rd (~~~(s.x rs ||| s.x rt)))

/-- `or` (R149) -/
def execOr (rd rs rt : RegNum) (s : State) : Result := retire (s.setX rd (s.x rs ||| s.x rt))

/-- `ori` (R150) -/
def execOri (rt rs : RegNum) (imm : Half) (s : State) : Result := retire (s.setX rt (s.x rs ||| zeroImm imm))

/-- `slt` (R151) -/
def execSlt (rd rs rt : RegNum) (s : State) : Result :=
  retire (s.setX rd (boolWord (decide ((s.x rs).toInt < (s.x rt).toInt))))

/-- `slti` (R152) -/
def execSlti (rt rs : RegNum) (imm : Half) (s : State) : Result :=
  retire (s.setX rt (boolWord (decide ((s.x rs).toInt < (signedImm imm).toInt))))

/-- `sltiu` (R153) -/
def execSltiu (rt rs : RegNum) (imm : Half) (s : State) : Result :=
  retire (s.setX rt (boolWord (decide ((s.x rs).toNat < (signedImm imm).toNat))))

/-- `sltu` (R154) -/
def execSltu (rd rs rt : RegNum) (s : State) : Result :=
  retire (s.setX rd (boolWord (decide ((s.x rs).toNat < (s.x rt).toNat))))

/-- `sll` (R155) -/
def execSll (rd rt : RegNum) (shamt : BitVec 5) (s : State) : Result := retire (s.setX rd (s.x rt <<< shamt.toNat))

/-- `srl` (R156) -/
def execSrl (rd rt : RegNum) (shamt : BitVec 5) (s : State) : Result := retire (s.setX rd (s.x rt >>> shamt.toNat))

/-- `sub` (R157) -/
def execSub (rd rs rt : RegNum) (s : State) : Result := overflowing rd (subSigned (s.x rs) (s.x rt)) s

/-- `subu` (R158) -/
def execSubu (rd rs rt : RegNum) (s : State) : Result := retire (s.setX rd (s.x rs - s.x rt))

/-- `sra` (R159) -/
def execSra (rd rt : RegNum) (shamt : BitVec 5) (s : State) : Result :=
  retire (s.setX rd ((s.x rt).sshiftRight shamt.toNat))

/-- `xor` (R160) -/
def execXor (rd rs rt : RegNum) (s : State) : Result := retire (s.setX rd (s.x rs ^^^ s.x rt))

/-- `xori` (R161) -/
def execXori (rt rs : RegNum) (imm : Half) (s : State) : Result := retire (s.setX rt (s.x rs ^^^ zeroImm imm))

/-- `sllv` (R162) -/
def execSllv (rd rt rs : RegNum) (s : State) : Result := retire (s.setX rd (s.x rt <<< shiftAmount (s.x rs)))

/-- `srlv` (R163) -/
def execSrlv (rd rt rs : RegNum) (s : State) : Result := retire (s.setX rd (s.x rt >>> shiftAmount (s.x rs)))

/-- `srav` (R164) -/
def execSrav (rd rt rs : RegNum) (s : State) : Result :=
  retire (s.setX rd ((s.x rt).sshiftRight (shiftAmount (s.x rs))))

/-- `movz` (R165) -/
def execMovz (rd rs rt : RegNum) (s : State) : Result := retire (if s.x rt = 0#32 then s.setX rd (s.x rs) else s)

/-- `movn` (R166) -/
def execMovn (rd rs rt : RegNum) (s : State) : Result := retire (if s.x rt = 0#32 then s else s.setX rd (s.x rs))

end Sys2Proof.Machine
end

