-- ==== Sys2Proof/Machine/LoadStore.lean ====
section
/-! DEFINITION. The meanings of the integer loads and stores (42_load_store.md). -/

namespace Sys2Proof.Machine

/-- `lwl`: the bytes of the word from place `b` on become the upper bytes of the register (R211). -/
def mergeLeft (w old : Word) (b : Nat) : Word := (w <<< (8 * b)) ||| (old &&& BitVec.ofNat 32 (2 ^ (8 * b) - 1))

/-- `lwr`: the bytes of the word up to place `b` become the lower bytes of the register (R212). -/
def mergeRight (w old : Word) (b : Nat) : Word :=
  (old &&& ~~~BitVec.ofNat 32 (2 ^ (8 * (b + 1)) - 1)) ||| (w >>> (8 * (3 - b)))

/-- Whether the draws make an `sc` with the link set fail: a spurious failure (R81, U18), or an own store into the
linked word since the `ll` (R82, U3b). -/
def State.scDrawnFailure (s : State) : Bool := (s.plat.scMayFail || s.llTouched) && Config.scFails s.time

/-- `sc` after its address checks (R81). -/
def State.storeConditional (s : State) (rt : RegNum) (a : Word) : Result :=
  if s.llBit && s.llAddr != a then .refused .scOtherAddress
  else if s.llBit && !s.scDrawnFailure then retire (((s.write32 a (s.x rt)).setX rt 1#32).clearLink)
  else retire ((s.setX rt 0#32).clearLink)

/-- `lbu` (R201) -/
def execLbu (rt rs : RegNum) (imm : Half) (s : State) : Result :=
  let a := s.effectiveAddress rs imm
  s.access .load 1 a a 1 (retire (s.setX rt ((s.read8 a).zeroExtend 32)))

/-- `lhu` (R202) -/
def execLhu (rt rs : RegNum) (imm : Half) (s : State) : Result :=
  let a := s.effectiveAddress rs imm
  s.access .load 2 a a 2 (retire (s.setX rt ((s.read16 a).zeroExtend 32)))

/-- `ll` (R203) -/
def execLl (rt rs : RegNum) (imm : Half) (s : State) : Result :=
  let a := s.effectiveAddress rs imm
  s.access .load 4 a a 4 (retire ((s.setX rt (s.read32 a)).setLink a))

/-- `lw` (R204) -/
def execLw (rt rs : RegNum) (imm : Half) (s : State) : Result :=
  let a := s.effectiveAddress rs imm
  s.access .load 4 a a 4 (retire (s.setX rt (s.read32 a)))

/-- `sb` (R205) -/
def execSb (rt rs : RegNum) (imm : Half) (s : State) : Result :=
  let a := s.effectiveAddress rs imm
  s.access .store 1 a a 1 (retire (s.write8 a ((s.x rt).extractLsb' 0 8)))

/-- `sc` (R206) -/
def execSc (rt rs : RegNum) (imm : Half) (s : State) : Result :=
  let a := s.effectiveAddress rs imm
  s.access .store 4 a a 4 (s.storeConditional rt a)

/-- `sh` (R207) -/
def execSh (rt rs : RegNum) (imm : Half) (s : State) : Result :=
  let a := s.effectiveAddress rs imm
  s.access .store 2 a a 2 (retire (s.write16 a ((s.x rt).extractLsb' 0 16)))

/-- `sw` (R208) -/
def execSw (rt rs : RegNum) (imm : Half) (s : State) : Result :=
  let a := s.effectiveAddress rs imm
  s.access .store 4 a a 4 (retire (s.write32 a (s.x rt)))

/-- `lb` (R209) -/
def execLb (rt rs : RegNum) (imm : Half) (s : State) : Result :=
  let a := s.effectiveAddress rs imm
  s.access .load 1 a a 1 (retire (s.setX rt ((s.read8 a).signExtend 32)))

/-- `lh` (R210) -/
def execLh (rt rs : RegNum) (imm : Half) (s : State) : Result :=
  let a := s.effectiveAddress rs imm
  s.access .load 2 a a 2 (retire (s.setX rt ((s.read16 a).signExtend 32)))

/-- `lwl` (R211) -/
def execLwl (rt rs : RegNum) (imm : Half) (s : State) : Result :=
  let a := s.effectiveAddress rs imm
  s.access .load 1 a a (4 - byteInWord a)
    (retire (s.setX rt (mergeLeft (s.read32 (alignedWord a)) (s.x rt) (byteInWord a))))

/-- `lwr` (R212) -/
def execLwr (rt rs : RegNum) (imm : Half) (s : State) : Result :=
  let a := s.effectiveAddress rs imm
  s.access .load 1 a (alignedWord a) (byteInWord a + 1)
    (retire (s.setX rt (mergeRight (s.read32 (alignedWord a)) (s.x rt) (byteInWord a))))

/-- `swl` (R213) -/
def execSwl (rt rs : RegNum) (imm : Half) (s : State) : Result :=
  let a := s.effectiveAddress rs imm
  s.access .store 1 a a (4 - byteInWord a) (retire (s.storeBytes a ((wordBytes (s.x rt)).take (4 - byteInWord a))))

/-- `swr` (R214) -/
def execSwr (rt rs : RegNum) (imm : Half) (s : State) : Result :=
  let a := s.effectiveAddress rs imm
  s.access .store 1 a (alignedWord a) (byteInWord a + 1)
    (retire (s.storeBytes (alignedWord a) ((wordBytes (s.x rt)).drop (3 - byteInWord a))))

end Sys2Proof.Machine
end

