-- ==== Sys2Proof/Machine/MulDiv.lean ====
section
/-! DEFINITION. The meanings of multiplication, division and the moves from and to HI and LO (43_muldiv_hilo.md). -/

namespace Sys2Proof.Machine

/-- `{HI, LO} <- p` (R235, R236). -/
def State.setProduct (s : State) (p : Dword) : State := (s.setHi (p.extractLsb' 32 32)).setLo (p.extractLsb' 0 32)

/-- A division by zero: HI and LO become a draw (R231, R232, R239, U1). -/
def State.drawQuotient (s : State) (op : DivOp) (rsValue : Word) : State :=
  (s.setHi (Config.divByZero s.time op rsValue).1).setLo (Config.divByZero s.time op rsValue).2

/-- `div` (R231) -/
def execDiv (rs rt : RegNum) (s : State) : Result :=
  retire (if s.x rt = 0#32 then s.drawQuotient .div (s.x rs)
    else (s.setLo (BitVec.ofInt 32 ((s.x rs).toInt.tdiv (s.x rt).toInt))).setHi
      (BitVec.ofInt 32 ((s.x rs).toInt.tmod (s.x rt).toInt)))

/-- `divu` (R232) -/
def execDivu (rs rt : RegNum) (s : State) : Result :=
  retire (if s.x rt = 0#32 then s.drawQuotient .divu (s.x rs)
    else (s.setLo (BitVec.ofNat 32 ((s.x rs).toNat / (s.x rt).toNat))).setHi
      (BitVec.ofNat 32 ((s.x rs).toNat % (s.x rt).toNat)))

/-- `mfhi` (R233) -/
def execMfhi (rd : RegNum) (s : State) : Result := retire (s.setX rd s.hi)

/-- `mflo` (R234) -/
def execMflo (rd : RegNum) (s : State) : Result := retire (s.setX rd s.lo)

/-- `mult` (R235) -/
def execMult (rs rt : RegNum) (s : State) : Result :=
  retire (s.setProduct (BitVec.ofInt 64 ((s.x rs).toInt * (s.x rt).toInt)))

/-- `multu` (R236) -/
def execMultu (rs rt : RegNum) (s : State) : Result :=
  retire (s.setProduct (BitVec.ofNat 64 ((s.x rs).toNat * (s.x rt).toNat)))

/-- `mthi` (R237) -/
def execMthi (rs : RegNum) (s : State) : Result := retire (s.setHi (s.x rs))

/-- `mtlo` (R238) -/
def execMtlo (rs : RegNum) (s : State) : Result := retire (s.setLo (s.x rs))

end Sys2Proof.Machine
end

