-- ==== Sys2Proof/Machine/System.lean ====
section
/-! DEFINITION. The meanings of coprocessor 0, the instructions that raise an exception on purpose, `sync`, `cache`,
`pref` and coprocessor 2 (45_system_coprocessor.md). -/

namespace Sys2Proof.Machine

/-- An instruction of the kernel: CpU in user mode (R330, R390, R411). What makes the decoded instruction refused comes
before it (R397; log entry 16). -/
def State.kernelOnly (s : State) (run : Result) : Result := if s.userMode then s.raise .cpu else run

/-- `CR[n]`, given to `k`; refused for a register no source describes (R34, R39, R330). -/
def State.readControl (s : State) (n : RegNum) (k : Word → Result) : Result :=
  match n with
  | 8#5 => k s.badVAddr
  | 12#5 => k s.status
  | 13#5 => k s.cause
  | 14#5 => k s.epc
  | _ => .refused .undescribedControlRegister

/-- The bits of Status that `mtc0` writes: IM, UM, EL, IE (R331). -/
def statusMask : Word := 0x0000ff13#32

/-- The bits of Cause that `mtc0` writes: IP[1:0] (R331). -/
def causeMask : Word := 0x00000300#32

/-- Some bits of a register written, the others kept. -/
def writeMasked (mask old v : Word) : Word := (old &&& ~~~mask) ||| (v &&& mask)

/-- `CR[n] <- v` as `mtc0` does it, the state after it given to `k`: BadVAddr is read-only (R331); refused for a register
no source describes (R39). -/
def State.writeControl (s : State) (n : RegNum) (v : Word) (k : State → Result) : Result :=
  match n with
  | 8#5 => k s
  | 12#5 => k { s with status := writeMasked statusMask s.status v }
  | 13#5 => k { s with cause := writeMasked causeMask s.cause v }
  | 14#5 => k { s with epc := v }
  | _ => .refused .undescribedControlRegister

/-- A trap instruction: Tr when its condition holds, else nothing (R342, R393). -/
def State.trapIf (s : State) (cond : Bool) : Result := if cond then s.raise .tr else retire s

/-- `mfc0` (R330). A number no source describes is refused in both modes, by the order of R397 (log entry 16). -/
def execMfc0 (rt rd : RegNum) (s : State) : Result := s.readControl rd (fun v => s.kernelOnly (retire (s.setX rt v)))

/-- `mtc0` (R331). A number no source describes is refused in both modes, by the order of R397 (log entry 16). -/
def execMtc0 (rt rd : RegNum) (s : State) : Result := s.writeControl rd (s.x rt) (fun t => s.kernelOnly (retire t))

/-- `eret` (R332). In a delay slot it is refused in both modes, by the order of R397 (log entry 16). -/
def execEret (s : State) : Result :=
  if s.inDs then .refused .transferInDelaySlot else s.kernelOnly (.next s.exceptionReturn)

/-- `syscall` (R333) -/
def execSyscall (_code : BitVec 20) (s : State) : Result := s.raise .sys

/-- `break` (R334) -/
def execBrk (_code : BitVec 20) (s : State) : Result := s.raise .bp

/-- `sync` (R335) -/
def execSync (s : State) : Result := retire s

/-- `tge` (R336) -/
def execTge (rs rt : RegNum) (_code : BitVec 10) (s : State) : Result :=
  s.trapIf (decide ((s.x rt).toInt ≤ (s.x rs).toInt))

/-- `tgeu` (R337) -/
def execTgeu (rs rt : RegNum) (_code : BitVec 10) (s : State) : Result :=
  s.trapIf (decide ((s.x rt).toNat ≤ (s.x rs).toNat))

/-- `tlt` (R338) -/
def execTlt (rs rt : RegNum) (_code : BitVec 10) (s : State) : Result :=
  s.trapIf (decide ((s.x rs).toInt < (s.x rt).toInt))

/-- `tltu` (R339) -/
def execTltu (rs rt : RegNum) (_code : BitVec 10) (s : State) : Result :=
  s.trapIf (decide ((s.x rs).toNat < (s.x rt).toNat))

/-- `teq` (R340) -/
def execTeq (rs rt : RegNum) (_code : BitVec 10) (s : State) : Result := s.trapIf (decide (s.x rs = s.x rt))

/-- `tne` (R341) -/
def execTne (rs rt : RegNum) (_code : BitVec 10) (s : State) : Result := s.trapIf (decide (s.x rs ≠ s.x rt))

/-- `cache` (R343) -/
def execCache (_op : BitVec 5) (_rs : RegNum) (_imm : Half) (s : State) : Result := s.kernelOnly (retire s)

/-- `pref` (R344) -/
def execPref (_hint : BitVec 5) (_rs : RegNum) (_imm : Half) (s : State) : Result := retire s

/-- `lwc2` (R346) -/
def execLwc2 (_rt _rs : RegNum) (_imm : Half) (s : State) : Result := s.raise .cpu

/-- `ldc2` (R347) -/
def execLdc2 (_rt _rs : RegNum) (_imm : Half) (s : State) : Result := s.raise .cpu

/-- `swc2` (R348) -/
def execSwc2 (_rt _rs : RegNum) (_imm : Half) (s : State) : Result := s.raise .cpu

/-- `sdc2` (R349) -/
def execSdc2 (_rt _rs : RegNum) (_imm : Half) (s : State) : Result := s.raise .cpu

end Sys2Proof.Machine
end

