-- ==== Sys2Proof/Machine/Dispatch.lean ====
section
/-! DEFINITION. The one dispatch: one arm per instruction, each a direct call of its meaning. -/

namespace Sys2Proof.Machine

def exec (i : Instr) (s : State) : Host.Outcome State Fault Refusal :=
  match i with
  | .add rd rs rt => Sys2Proof.Machine.execAdd rd rs rt s
  | .addi rt rs imm => Sys2Proof.Machine.execAddi rt rs imm s
  | .addiu rt rs imm => Sys2Proof.Machine.execAddiu rt rs imm s
  | .addu rd rs rt => Sys2Proof.Machine.execAddu rd rs rt s
  | .and rd rs rt => Sys2Proof.Machine.execAnd rd rs rt s
  | .andi rt rs imm => Sys2Proof.Machine.execAndi rt rs imm s
  | .lui rt imm => Sys2Proof.Machine.execLui rt imm s
  | .nor rd rs rt => Sys2Proof.Machine.execNor rd rs rt s
  | .or rd rs rt => Sys2Proof.Machine.execOr rd rs rt s
  | .ori rt rs imm => Sys2Proof.Machine.execOri rt rs imm s
  | .slt rd rs rt => Sys2Proof.Machine.execSlt rd rs rt s
  | .slti rt rs imm => Sys2Proof.Machine.execSlti rt rs imm s
  | .sltiu rt rs imm => Sys2Proof.Machine.execSltiu rt rs imm s
  | .sltu rd rs rt => Sys2Proof.Machine.execSltu rd rs rt s
  | .sll rd rt shamt => Sys2Proof.Machine.execSll rd rt shamt s
  | .srl rd rt shamt => Sys2Proof.Machine.execSrl rd rt shamt s
  | .sub rd rs rt => Sys2Proof.Machine.execSub rd rs rt s
  | .subu rd rs rt => Sys2Proof.Machine.execSubu rd rs rt s
  | .sra rd rt shamt => Sys2Proof.Machine.execSra rd rt shamt s
  | .xor rd rs rt => Sys2Proof.Machine.execXor rd rs rt s
  | .xori rt rs imm => Sys2Proof.Machine.execXori rt rs imm s
  | .sllv rd rt rs => Sys2Proof.Machine.execSllv rd rt rs s
  | .srlv rd rt rs => Sys2Proof.Machine.execSrlv rd rt rs s
  | .srav rd rt rs => Sys2Proof.Machine.execSrav rd rt rs s
  | .movz rd rs rt => Sys2Proof.Machine.execMovz rd rs rt s
  | .movn rd rs rt => Sys2Proof.Machine.execMovn rd rs rt s
  | .beq rs rt imm => Sys2Proof.Machine.execBeq rs rt imm s
  | .bne rs rt imm => Sys2Proof.Machine.execBne rs rt imm s
  | .j address => Sys2Proof.Machine.execJ address s
  | .jal address => Sys2Proof.Machine.execJal address s
  | .jr rs => Sys2Proof.Machine.execJr rs s
  | .blez rs imm => Sys2Proof.Machine.execBlez rs imm s
  | .bgtz rs imm => Sys2Proof.Machine.execBgtz rs imm s
  | .jalr rd rs => Sys2Proof.Machine.execJalr rd rs s
  | .lbu rt rs imm => Sys2Proof.Machine.execLbu rt rs imm s
  | .lhu rt rs imm => Sys2Proof.Machine.execLhu rt rs imm s
  | .ll rt rs imm => Sys2Proof.Machine.execLl rt rs imm s
  | .lw rt rs imm => Sys2Proof.Machine.execLw rt rs imm s
  | .sb rt rs imm => Sys2Proof.Machine.execSb rt rs imm s
  | .sc rt rs imm => Sys2Proof.Machine.execSc rt rs imm s
  | .sh rt rs imm => Sys2Proof.Machine.execSh rt rs imm s
  | .sw rt rs imm => Sys2Proof.Machine.execSw rt rs imm s
  | .lb rt rs imm => Sys2Proof.Machine.execLb rt rs imm s
  | .lh rt rs imm => Sys2Proof.Machine.execLh rt rs imm s
  | .lwl rt rs imm => Sys2Proof.Machine.execLwl rt rs imm s
  | .lwr rt rs imm => Sys2Proof.Machine.execLwr rt rs imm s
  | .swl rt rs imm => Sys2Proof.Machine.execSwl rt rs imm s
  | .swr rt rs imm => Sys2Proof.Machine.execSwr rt rs imm s
  | .div rs rt => Sys2Proof.Machine.execDiv rs rt s
  | .divu rs rt => Sys2Proof.Machine.execDivu rs rt s
  | .mfhi rd => Sys2Proof.Machine.execMfhi rd s
  | .mflo rd => Sys2Proof.Machine.execMflo rd s
  | .mult rs rt => Sys2Proof.Machine.execMult rs rt s
  | .multu rs rt => Sys2Proof.Machine.execMultu rs rt s
  | .mthi rs => Sys2Proof.Machine.execMthi rs s
  | .mtlo rs => Sys2Proof.Machine.execMtlo rs s
  | .addS fd fs ft => Sys2Proof.Machine.execAddS fd fs ft s
  | .addD fd fs ft => Sys2Proof.Machine.execAddD fd fs ft s
  | .subS fd fs ft => Sys2Proof.Machine.execSubS fd fs ft s
  | .subD fd fs ft => Sys2Proof.Machine.execSubD fd fs ft s
  | .mulS fd fs ft => Sys2Proof.Machine.execMulS fd fs ft s
  | .mulD fd fs ft => Sys2Proof.Machine.execMulD fd fs ft s
  | .divS fd fs ft => Sys2Proof.Machine.execDivS fd fs ft s
  | .divD fd fs ft => Sys2Proof.Machine.execDivD fd fs ft s
  | .sqrtS fd fs => Sys2Proof.Machine.execSqrtS fd fs s
  | .sqrtD fd fs => Sys2Proof.Machine.execSqrtD fd fs s
  | .absS fd fs => Sys2Proof.Machine.execAbsS fd fs s
  | .absD fd fs => Sys2Proof.Machine.execAbsD fd fs s
  | .movS fd fs => Sys2Proof.Machine.execMovS fd fs s
  | .movD fd fs => Sys2Proof.Machine.execMovD fd fs s
  | .negS fd fs => Sys2Proof.Machine.execNegS fd fs s
  | .negD fd fs => Sys2Proof.Machine.execNegD fd fs s
  | .roundWS fd fs => Sys2Proof.Machine.execRoundWS fd fs s
  | .roundWD fd fs => Sys2Proof.Machine.execRoundWD fd fs s
  | .truncWS fd fs => Sys2Proof.Machine.execTruncWS fd fs s
  | .truncWD fd fs => Sys2Proof.Machine.execTruncWD fd fs s
  | .ceilWS fd fs => Sys2Proof.Machine.execCeilWS fd fs s
  | .ceilWD fd fs => Sys2Proof.Machine.execCeilWD fd fs s
  | .floorWS fd fs => Sys2Proof.Machine.execFloorWS fd fs s
  | .floorWD fd fs => Sys2Proof.Machine.execFloorWD fd fs s
  | .movzS fd fs rt => Sys2Proof.Machine.execMovzS fd fs rt s
  | .movzD fd fs rt => Sys2Proof.Machine.execMovzD fd fs rt s
  | .movnS fd fs rt => Sys2Proof.Machine.execMovnS fd fs rt s
  | .movnD fd fs rt => Sys2Proof.Machine.execMovnD fd fs rt s
  | .cvtSD fd fs => Sys2Proof.Machine.execCvtSD fd fs s
  | .cvtDS fd fs => Sys2Proof.Machine.execCvtDS fd fs s
  | .cvtWS fd fs => Sys2Proof.Machine.execCvtWS fd fs s
  | .cvtWD fd fs => Sys2Proof.Machine.execCvtWD fd fs s
  | .cvtSS fd fs => Sys2Proof.Machine.execCvtSS fd fs s
  | .cvtDD fd fs => Sys2Proof.Machine.execCvtDD fd fs s
  | .cFS fs ft => Sys2Proof.Machine.execCFS fs ft s
  | .cFD fs ft => Sys2Proof.Machine.execCFD fs ft s
  | .cUnS fs ft => Sys2Proof.Machine.execCUnS fs ft s
  | .cUnD fs ft => Sys2Proof.Machine.execCUnD fs ft s
  | .cEqS fs ft => Sys2Proof.Machine.execCEqS fs ft s
  | .cEqD fs ft => Sys2Proof.Machine.execCEqD fs ft s
  | .cUeqS fs ft => Sys2Proof.Machine.execCUeqS fs ft s
  | .cUeqD fs ft => Sys2Proof.Machine.execCUeqD fs ft s
  | .cOltS fs ft => Sys2Proof.Machine.execCOltS fs ft s
  | .cOltD fs ft => Sys2Proof.Machine.execCOltD fs ft s
  | .cUltS fs ft => Sys2Proof.Machine.execCUltS fs ft s
  | .cUltD fs ft => Sys2Proof.Machine.execCUltD fs ft s
  | .cOleS fs ft => Sys2Proof.Machine.execCOleS fs ft s
  | .cOleD fs ft => Sys2Proof.Machine.execCOleD fs ft s
  | .cUleS fs ft => Sys2Proof.Machine.execCUleS fs ft s
  | .cUleD fs ft => Sys2Proof.Machine.execCUleD fs ft s
  | .cSfS fs ft => Sys2Proof.Machine.execCSfS fs ft s
  | .cSfD fs ft => Sys2Proof.Machine.execCSfD fs ft s
  | .cNgleS fs ft => Sys2Proof.Machine.execCNgleS fs ft s
  | .cNgleD fs ft => Sys2Proof.Machine.execCNgleD fs ft s
  | .cSeqS fs ft => Sys2Proof.Machine.execCSeqS fs ft s
  | .cSeqD fs ft => Sys2Proof.Machine.execCSeqD fs ft s
  | .cNglS fs ft => Sys2Proof.Machine.execCNglS fs ft s
  | .cNglD fs ft => Sys2Proof.Machine.execCNglD fs ft s
  | .cLtS fs ft => Sys2Proof.Machine.execCLtS fs ft s
  | .cLtD fs ft => Sys2Proof.Machine.execCLtD fs ft s
  | .cNgeS fs ft => Sys2Proof.Machine.execCNgeS fs ft s
  | .cNgeD fs ft => Sys2Proof.Machine.execCNgeD fs ft s
  | .cLeS fs ft => Sys2Proof.Machine.execCLeS fs ft s
  | .cLeD fs ft => Sys2Proof.Machine.execCLeD fs ft s
  | .cNgtS fs ft => Sys2Proof.Machine.execCNgtS fs ft s
  | .cNgtD fs ft => Sys2Proof.Machine.execCNgtD fs ft s
  | .lwc1 ft rs imm => Sys2Proof.Machine.execLwc1 ft rs imm s
  | .ldc1 ft rs imm => Sys2Proof.Machine.execLdc1 ft rs imm s
  | .swc1 ft rs imm => Sys2Proof.Machine.execSwc1 ft rs imm s
  | .sdc1 ft rs imm => Sys2Proof.Machine.execSdc1 ft rs imm s
  | .bc1t imm => Sys2Proof.Machine.execBc1t imm s
  | .bc1f imm => Sys2Proof.Machine.execBc1f imm s
  | .mfc0 rt rd => Sys2Proof.Machine.execMfc0 rt rd s
  | .mtc0 rt rd => Sys2Proof.Machine.execMtc0 rt rd s
  | .eret => Sys2Proof.Machine.execEret s
  | .syscall code => Sys2Proof.Machine.execSyscall code s
  | .brk code => Sys2Proof.Machine.execBrk code s
  | .sync => Sys2Proof.Machine.execSync s
  | .tge rs rt code => Sys2Proof.Machine.execTge rs rt code s
  | .tgeu rs rt code => Sys2Proof.Machine.execTgeu rs rt code s
  | .tlt rs rt code => Sys2Proof.Machine.execTlt rs rt code s
  | .tltu rs rt code => Sys2Proof.Machine.execTltu rs rt code s
  | .teq rs rt code => Sys2Proof.Machine.execTeq rs rt code s
  | .tne rs rt code => Sys2Proof.Machine.execTne rs rt code s
  | .cache op rs imm => Sys2Proof.Machine.execCache op rs imm s
  | .pref hint rs imm => Sys2Proof.Machine.execPref hint rs imm s
  | .lwc2 rt rs imm => Sys2Proof.Machine.execLwc2 rt rs imm s
  | .ldc2 rt rs imm => Sys2Proof.Machine.execLdc2 rt rs imm s
  | .swc2 rt rs imm => Sys2Proof.Machine.execSwc2 rt rs imm s
  | .sdc2 rt rs imm => Sys2Proof.Machine.execSdc2 rt rs imm s

end Sys2Proof.Machine
end

