-- ==== Sys2Proof/Machine/Step.lean ====
section
/-! DEFINITION. One step of the machine (00_scope.md R15), and where a program is placed. -/

namespace Sys2Proof.Machine

/-- What a decoded word does: its instruction's meaning; a blank selector raises RI or is refused (R118, R389); a
non-zero must-be-zero field is refused (R119). -/
def State.executeWord (s : State) (w : Word) : Host.Outcome State Fault Refusal :=
  match decode w with
  | .instr i => exec i s
  | .unassigned => if s.plat.blankIsRi then s.raise .ri else .refused .unassignedWord
  | .mustBeZero => .refused .mustBeZeroField

/-- The part of a step after the interrupt test: fetch, decode, execute (R15, R397). -/
def State.fetchExecute (s : State) : Host.Outcome State Fault Refusal :=
  match s.fetch with
  | .addressError => s.raiseAddress .adel s.pc
  | .busError => s.raise .ibe
  | .storedByte => .refused .fetchOfStoredByte
  | .word w => s.executeWord w

/-- One step: what the platform does, then an interrupt if one is pending, else one instruction (R15, R392). -/
def step (s : State) : Host.Outcome State Fault Refusal :=
  if s.beginStep.interruptPending then s.beginStep.raise .int else s.beginStep.fetchExecute

/-- The instruction whose bits are `w` placed at the `pc` by the platform, big endian (R70, R432; log entry 20). -/
def State.withFetchWord (s : State) (nbits w : Nat) : State := s.placeBytes s.pc (wordBytes (tableWord nbits w))

end Sys2Proof.Machine
end

