-- ==== Sys2Proof/Safety.lean ====
section
/-! DEFINITION. The terms statements are made in: the invariant every step keeps, what an instruction changes and leaves
alone, taking an exception said field by field, and IEEE 754 values and rounding over the real numbers. Nothing here is
used by the machine. -/

namespace Sys2Proof.Machine

/-! ### The invariant -/

/-- What holds of the machine after reset and after every step: memory and the list of stored addresses keep their
form (R60), register 0 holds zero (R21), the unnamed bits of Status and Cause are zero (R35, R36), the linked address is
aligned (R80), an own store to the linked word is recorded only while the link is set (R82), outside a delay slot `npc`
follows `pc` (R25), and in a delay slot the `pc` is aligned (R67). -/
structure State.Inv (s : State) : Prop where
  memWf : Memory.wf s.mem
  storedRising : s.stored.Pairwise (· < ·)
  storedBounded : ∀ a ∈ s.stored, a < 2 ^ 32
  zeroRegister : regRead s.gpr 0#5 = 0#32
  statusUnnamed : s.status &&& 0xffff00ec#32 = 0#32
  causeUnnamed : s.cause &&& 0x7fff0083#32 = 0#32
  linkAligned : s.llBit = true → s.llAddr &&& 3#32 = 0#32
  touchedLinked : s.llTouched = true → s.llBit = true
  sequential : s.inDs = false → s.npc = s.pc + 4#32
  slotAligned : s.inDs = true → s.pc &&& 3#32 = 0#32

/-! ### What an instruction does, and its frame -/

/-- `w` is the instruction's word: the encoder gives it and the decoder reads it back. -/
def hasWord (i : Instr) (w : Word) : Prop := encode i = w ∧ decode w = .instr i

/-- The instruction answers a next state, of which `p` holds. -/
def completes (i : Instr) (s : State) (p : State → Prop) : Prop := ∃ t, exec i s = .next t ∧ p t

/-- The instruction stops, refused for this reason. -/
def refuses (i : Instr) (s : State) (r : Refusal) : Prop := exec i s = .refused r

/-- The word at an address, the byte at the address its most significant (R62, R64). -/
def wordAt (s : State) (a : Word) : Word := s.byte a ++ s.byte (a + 1#32) ++ s.byte (a + 2#32) ++ s.byte (a + 3#32)

/-- The bytes of a word, the most significant first (R63, R64). -/
def bytesOf (v : Word) : List Byte := [v.extractLsb' 24 8, v.extractLsb' 16 8, v.extractLsb' 8 8, v.extractLsb' 0 8]

/-- Every byte of memory reads as before. -/
def sameBytes (s t : State) : Prop := ∀ a, t.byte a = s.byte a

/-- Control falls through to the instruction at `npc` (R26) and nothing else changes. -/
def changesNothing (s t : State) : Prop :=
  t = { s with pc := s.npc, npc := s.npc + 4#32, inDs := false } ∧ sameBytes s t

/-- General register `rd` receives `v`, unless it is register 0; every other register and everything else but the
program counters is unchanged. -/
def writesX (s t : State) (rd : RegNum) (v : Word) : Prop :=
  (∀ n, t.x n = if n = rd ∧ n ≠ 0#5 then v else s.x n) ∧
  t = { s with gpr := t.gpr, pc := s.npc, npc := s.npc + 4#32, inDs := false } ∧ sameBytes s t

/-- Floating-point register `fd` receives `v`; every other register and everything else but the program counters is
unchanged. -/
def writesF (s t : State) (fd : RegNum) (v : Word) : Prop :=
  (∀ n, t.f n = if n = fd then v else s.f n) ∧
  t = { s with fpr := t.fpr, pc := s.npc, npc := s.npc + 4#32, inDs := false } ∧ sameBytes s t

/-- The pair of floating-point registers `fd`, `fd + 1` receives `v`, its upper word in `fd`; every other register and
everything else but the program counters is unchanged. -/
def writesDouble (s t : State) (fd : RegNum) (v : Dword) : Prop :=
  (∀ n, t.f n = if n = fd then v.extractLsb' 32 32 else if n = fd + 1#5 then v.extractLsb' 0 32 else s.f n) ∧
  t = { s with fpr := t.fpr, pc := s.npc, npc := s.npc + 4#32, inDs := false } ∧ sameBytes s t

/-- `FPcond` receives `b`; everything else but the program counters is unchanged. -/
def writesFpcond (s t : State) (b : Bool) : Prop :=
  t = { s with fpcond := b, pc := s.npc, npc := s.npc + 4#32, inDs := false } ∧ sameBytes s t

/-- `HI` and `LO` receive these values; everything else but the program counters is unchanged. -/
def writesHiLo (s t : State) (hi lo : Word) : Prop :=
  t = { s with hi := hi, lo := lo, pc := s.npc, npc := s.npc + 4#32, inDs := false } ∧ sameBytes s t

/-- Control is transferred with a delay: to `target` when `taken`, after the delay slot (R26); nothing else changes. -/
def transfersTo (s t : State) (taken : Prop) (target : Word) : Prop :=
  t.pc = s.npc ∧ (taken → t.npc = target) ∧ (¬ taken → t.npc = s.npc + 4#32) ∧ t.inDs = true ∧
  t = { s with pc := t.pc, npc := t.npc, inDs := t.inDs } ∧ sameBytes s t

/-- Control is transferred to `target` after the delay slot and register `rd`, unless it is register 0, receives the
link value `v`; nothing else changes. -/
def linksTo (s t : State) (rd : RegNum) (v target : Word) : Prop :=
  (∀ n, t.x n = if n = rd ∧ n ≠ 0#5 then v else s.x n) ∧
  t = { s with gpr := t.gpr, pc := s.npc, npc := target, inDs := true } ∧ sameBytes s t

/-- The bytes from `a` on become `bytes`, every other byte reads as before (R63); exactly the addresses written join those
that a store of the run has written (R85), and a store into the linked word is recorded while the link is set (R82). -/
def bytesBecome (s t : State) (a : Word) (bytes : List Byte) : Prop :=
  (∀ k (h : k < bytes.length), t.byte (a + BitVec.ofNat 32 k) = bytes[k]) ∧
  (∀ b, (∀ k, k < bytes.length → b ≠ a + BitVec.ofNat 32 k) → t.byte b = s.byte b) ∧
  (∀ c, c ∈ t.stored ↔ c ∈ s.stored ∨ ∃ k, k < bytes.length ∧ c = (a + BitVec.ofNat 32 k).toNat)

/-- One of the `n` bytes from `a` on lies in the linked word (R82, R83). -/
def touchesLink (s : State) (a : Word) (n : Nat) : Prop :=
  s.llBit = true ∧ ∃ k, k < n ∧ (a + BitVec.ofNat 32 k) &&& ~~~3#32 = s.llAddr &&& ~~~3#32

/-- The bytes from `a` on become `bytes`; every other byte reads as before; nothing else changes but the program
counters and what the model records of a store. -/
def writesBytes (s t : State) (a : Word) (bytes : List Byte) : Prop :=
  bytesBecome s t a bytes ∧
  (t.llTouched = true ↔ s.llTouched = true ∨ touchesLink s a bytes.length) ∧
  t = { s with
    mem := t.mem, stored := t.stored, llTouched := t.llTouched, pc := s.npc, npc := s.npc + 4#32, inDs := false }

/-- What `ll` does (R80): register `rt`, unless it is register 0, receives `v`; the link is set at `a`; nothing else
changes but the program counters. -/
def linksWord (s t : State) (rt : RegNum) (v a : Word) : Prop :=
  (∀ n, t.x n = if n = rt ∧ n ≠ 0#5 then v else s.x n) ∧
  t = { s with
    gpr := t.gpr, llBit := true, llAddr := a, llTouched := false, pc := s.npc, npc := s.npc + 4#32, inDs := false } ∧
  sameBytes s t

/-- An `sc` that stores (R81): the bytes at `a` become `bytes`, register `rt`, unless it is register 0, receives 1, the
link is cleared; nothing else changes but the program counters and what the model records of a store. -/
def storesConditionally (s t : State) (rt : RegNum) (a : Word) (bytes : List Byte) : Prop :=
  bytesBecome s t a bytes ∧
  (∀ n, t.x n = if n = rt ∧ n ≠ 0#5 then 1#32 else s.x n) ∧
  t = { s with
    mem := t.mem, stored := t.stored, gpr := t.gpr, llBit := false, llTouched := false, pc := s.npc,
    npc := s.npc + 4#32, inDs := false }

/-- An `sc` that does not store (R81): register `rt`, unless it is register 0, receives 0, the link is cleared; nothing
else changes but the program counters. -/
def storesNothing (s t : State) (rt : RegNum) : Prop :=
  (∀ n, t.x n = if n = rt ∧ n ≠ 0#5 then 0#32 else s.x n) ∧
  t = { s with
    gpr := t.gpr, llBit := false, llTouched := false, pc := s.npc, npc := s.npc + 4#32, inDs := false } ∧
  sameBytes s t

/-- What trap entry leaves (R395), field by field: EPC and Cause.BD keep their values when EL was set; ExcCode; BadVAddr
only when an address is recorded; EL set and the rest of Status kept; control at `EXC_VECTOR`; nothing else changes. -/
def enters (s t : State) (code : BitVec 5) (badVAddr : Option Word) : Prop :=
  t.epc = (if s.el then s.epc else if s.inDs then s.pc - 4#32 else s.pc) ∧
  t.cause.getLsbD 31 = (if s.el then s.cause.getLsbD 31 else s.inDs) ∧
  t.cause.extractLsb' 2 5 = code ∧
  (∀ k, k < 31 → k < 2 ∨ 6 < k → t.cause.getLsbD k = s.cause.getLsbD k) ∧
  (∀ v, badVAddr = some v → t.badVAddr = v) ∧
  (badVAddr = none → t.badVAddr = s.badVAddr) ∧
  t.status = s.status ||| 2#32 ∧
  t.pc = s.plat.excVector ∧ t.npc = s.plat.excVector + 4#32 ∧ t.inDs = false ∧
  t = { s with
    epc := t.epc, cause := t.cause, badVAddr := t.badVAddr, status := t.status, pc := t.pc, npc := t.npc,
    inDs := t.inDs } ∧
  sameBytes s t

/-! ### The checks of a data access -/

/-- `Mapped` holds and `BusError` does not, for every byte of an access (R75); a doubleword is two accesses of four
bytes (R71). -/
def served (s : State) (kind : AccessKind) (first : Word) (n : Nat) : Prop :=
  ∀ k, k < n →
    (∃ r ∈ s.plat.mapped, regionCovers r kind (min n 4) (first + BitVec.ofNat 32 k).toNat = true) ∧
    ∀ r ∈ s.plat.busError, regionCovers r kind (min n 4) (first + BitVec.ofNat 32 k).toNat = false

/-- User mode (R410): Status.UM set, Status.EL clear. -/
def inUserMode (s : State) : Prop := s.status.getLsbD 4 = true ∧ s.status.getLsbD 1 = false

/-- In user mode and above the user space: `addr >=u 0x80000000` (R74). -/
def aboveLimit (s : State) (addr : Word) : Prop := inUserMode s ∧ 0x80000000 ≤ addr.toNat

/-- The byte is mapped for some kind and width of access: another agent may write it (R78; log entry 24). -/
def mappedByte (p : Platform) (a : Word) : Bool :=
  p.mapped.any (fun r => (r.fetch || r.load || r.store) && r.widths.any (fun n => decide (1 ≤ n ∧ n ≤ 4)) &&
    decide (r.base ≤ a.toNat) && decide (a.toNat < r.base + r.size))

/-- A data access at `addr` that needs alignment `align` and touches `n` bytes from `first` on passes the checks of
R68. -/
def accessOk (s : State) (kind : AccessKind) (align : Nat) (addr first : Word) (n : Nat) : Prop :=
  addr.toNat % align = 0 ∧ ¬ aboveLimit s addr ∧ served s kind first n

/-- A data access, whole (R66, R68, R74, R75): when its checks pass the instruction answers a next state with `p`;
misaligned or above the user limit it takes AdEL or AdES with the address in BadVAddr; not served it takes DBE. -/
def accesses (i : Instr) (s : State) (kind : AccessKind) (align : Nat) (addr first : Word) (n : Nat)
    (p : State → Prop) : Prop :=
  (accessOk s kind align addr first n → completes i s p) ∧
  (addr.toNat % align ≠ 0 ∨ aboveLimit s addr →
    completes i s (fun t => enters s t (if kind = .store then 5#5 else 4#5) (some addr))) ∧
  (addr.toNat % align = 0 → ¬ aboveLimit s addr → ¬ served s kind first n →
    completes i s (fun t => enters s t 7#5 none))

/-! ### Words that are assigned -/

/-- The word's selector is assigned by the maps R110 to R114. -/
def assignedSelector (w : Word) : Prop :=
  let op := (w.extractLsb' 26 6).toNat
  let fmt := (w.extractLsb' 21 5).toNat
  let ft := (w.extractLsb' 16 5).toNat
  let funct := (w.extractLsb' 0 6).toNat
  if op = 0x00 then
    funct ∈ [0x00, 0x02, 0x03, 0x04, 0x06, 0x07, 0x08, 0x09, 0x0a, 0x0b, 0x0c, 0x0d, 0x0f, 0x10, 0x11, 0x12, 0x13,
      0x18, 0x19, 0x1a, 0x1b, 0x20, 0x21, 0x22, 0x23, 0x24, 0x25, 0x26, 0x27, 0x2a, 0x2b, 0x30, 0x31, 0x32, 0x33,
      0x34, 0x36]
  else if op = 0x10 then (if w.getLsbD 25 then funct = 0x18 else fmt = 0 ∨ fmt = 4)
  else if op = 0x11 then
    if fmt = 0x08 then ft = 0 ∨ ft = 1
    else if fmt = 0x10 then
      funct < 0x08 ∨ (0x0c ≤ funct ∧ funct ≤ 0x0f) ∨ funct = 0x12 ∨ funct = 0x13 ∨ funct = 0x20 ∨ funct = 0x21 ∨
        funct = 0x24 ∨ 0x30 ≤ funct
    else if fmt = 0x11 then
      funct < 0x08 ∨ (0x0c ≤ funct ∧ funct ≤ 0x0f) ∨ funct = 0x12 ∨ funct = 0x13 ∨ funct = 0x20 ∨ funct = 0x21 ∨
        funct = 0x24 ∨ 0x30 ≤ funct
    else False
  else
    (0x02 ≤ op ∧ op ≤ 0x0f) ∨ (0x20 ≤ op ∧ op ≤ 0x26) ∨
      op ∈ [0x28, 0x29, 0x2a, 0x2b, 0x2e, 0x2f, 0x30, 0x31, 0x32, 0x33, 0x35, 0x36, 0x38, 0x39, 0x3a, 0x3d, 0x3e]

/-! ### IEEE 754 over the real numbers -/

/-- The number a value is; 0 for a NaN and the infinities, which are no numbers (R252). -/
noncomputable def realValue (v : FpValue) : ℝ :=
  match v with
  | .finite neg m e => (if neg then -1 else 1) * (m : ℝ) * (2 : ℝ) ^ e
  | .zero _ => 0
  | .inf _ => 0
  | .nan => 0

/-- The place of a value on the extended real line; of no use for a NaN (R289). -/
noncomputable def extendedValue (v : FpValue) : EReal :=
  match v with
  | .inf neg => if neg then ⊥ else ⊤
  | .finite neg m e => ((realValue (.finite neg m e) : ℝ) : EReal)
  | .zero _ => 0
  | .nan => 0

/-- The value is a number: neither a NaN nor an infinity. -/
def isNumber (v : FpValue) : Prop :=
  match v with
  | .finite _ _ _ => True
  | .zero _ => True
  | .inf _ => False
  | .nan => False

/-- `m` is `q` rounded to an integer, to nearest, a tie to the even integer (R253). -/
def isNearestEven (q : ℝ) (m : ℤ) : Prop := |q - m| ≤ 1 / 2 ∧ (|q - m| = 1 / 2 → Even m)

/-- The last lines of `round_fmt` (R253): the pattern of sign `neg`, integer `m` and exponent `e`. -/
def isRoundedPattern (fmt : FpFormat) (neg : Bool) (m : Nat) (e : ℤ) (w : Nat) : Prop :=
  if (bias fmt : ℤ) < e then w = fpPack fmt neg (maxExp fmt) 0
  else if m < 2 ^ fracBits fmt then w = fpPack fmt neg 0 m
  else ∃ f : Nat, (f : ℤ) = e + bias fmt ∧ w = fpPack fmt neg f (m - 2 ^ fracBits fmt)

/-- `w` is `round_fmt(v, zs)` (R253): the exponent is `max(floor(log2 |v|), emin)`, the integer is `|v| / 2^(e - p + 1)`
rounded to nearest even, and a carry goes into the next binade. -/
def rounds (fmt : FpFormat) (v : ℝ) (zs : Bool) (w : Nat) : Prop :=
  (v = 0 → w = fpPack fmt zs 0 0) ∧
  (v ≠ 0 → ∃ (e : ℤ) (m : Nat),
    e = max (Int.log 2 |v|) (emin fmt) ∧
    isNearestEven (|v| / (2 : ℝ) ^ (e - fracBits fmt)) m ∧
    (m = 2 ^ (fracBits fmt + 1) → isRoundedPattern fmt (decide (v < 0)) (2 ^ fracBits fmt) (e + 1) w) ∧
    (m ≠ 2 ^ (fracBits fmt + 1) → isRoundedPattern fmt (decide (v < 0)) m e w))

/-- The pattern is a NaN of the format: exponent field MAX, fraction field not zero, in the format's width (R251). -/
def isNaNPattern (fmt : FpFormat) (w : Nat) : Prop :=
  fpExpField fmt w = maxExp fmt ∧ fpFracField fmt w ≠ 0 ∧ w < 2 ^ (1 + expBits fmt + fracBits fmt)

/-- `w` is a sum of two values (R255). -/
def isSum (fmt : FpFormat) (a b : FpValue) (w : Nat) : Prop :=
  match a, b with
  | .nan, _ => isNaNPattern fmt w
  | _, .nan => isNaNPattern fmt w
  | .inf na, .inf nb => if na = nb then w = fpPack fmt na (maxExp fmt) 0 else isNaNPattern fmt w
  | .inf na, _ => w = fpPack fmt na (maxExp fmt) 0
  | _, .inf nb => w = fpPack fmt nb (maxExp fmt) 0
  | .zero na, .zero nb => w = fpPack fmt (na && nb) 0 0
  | a, b => rounds fmt (realValue a + realValue b) false w

/-- `w` is a product of two values (R259). -/
def isProduct (fmt : FpFormat) (a b : FpValue) (w : Nat) : Prop :=
  match a, b with
  | .nan, _ => isNaNPattern fmt w
  | _, .nan => isNaNPattern fmt w
  | .inf _, .zero _ => isNaNPattern fmt w
  | .zero _, .inf _ => isNaNPattern fmt w
  | .inf na, b => w = fpPack fmt (na ^^ valueSign b) (maxExp fmt) 0
  | a, .inf nb => w = fpPack fmt (valueSign a ^^ nb) (maxExp fmt) 0
  | a, b => rounds fmt (realValue a * realValue b) (valueSign a ^^ valueSign b) w

/-- `w` is a quotient of two values (R261). -/
def isQuotient (fmt : FpFormat) (a b : FpValue) (w : Nat) : Prop :=
  match a, b with
  | .nan, _ => isNaNPattern fmt w
  | _, .nan => isNaNPattern fmt w
  | .inf _, .inf _ => isNaNPattern fmt w
  | .zero _, .zero _ => isNaNPattern fmt w
  | .inf na, b => w = fpPack fmt (na ^^ valueSign b) (maxExp fmt) 0
  | a, .inf nb => w = fpPack fmt (valueSign a ^^ nb) 0 0
  | a, .zero nb => w = fpPack fmt (valueSign a ^^ nb) (maxExp fmt) 0
  | a, b => rounds fmt (realValue a / realValue b) (valueSign a ^^ valueSign b) w

/-- `w` is the square root of a value (R263). -/
def isRoot (fmt : FpFormat) (a : FpValue) (w : Nat) : Prop :=
  match a with
  | .nan => isNaNPattern fmt w
  | .zero neg => w = fpPack fmt neg 0 0
  | .inf neg => if neg then isNaNPattern fmt w else w = fpPack fmt false (maxExp fmt) 0
  | .finite neg m e =>
    if neg then isNaNPattern fmt w else rounds fmt (Real.sqrt (realValue (.finite neg m e))) false w

/-- `w` is a value converted to a format (R283, R284). -/
def isConversion (fmt : FpFormat) (a : FpValue) (w : Nat) : Prop :=
  match a with
  | .nan => isNaNPattern fmt w
  | .inf neg => w = fpPack fmt neg (maxExp fmt) 0
  | .zero neg => w = fpPack fmt neg 0 0
  | .finite neg m e => rounds fmt (realValue (.finite neg m e)) false w

/-- The first value is less than the second: neither is a NaN (R289). -/
def isLess (a b : FpValue) : Prop := a ≠ .nan ∧ b ≠ .nan ∧ extendedValue a < extendedValue b

/-- The two values are equal: neither is a NaN (R289). -/
def isEqual (a b : FpValue) : Prop := a ≠ .nan ∧ b ≠ .nan ∧ extendedValue a = extendedValue b

/-- One of the two values is a NaN (R289). -/
def isUnordered (a b : FpValue) : Prop := a = .nan ∨ b = .nan

/-- The instruction sets `FPcond` when `p` holds, clears it otherwise, and changes nothing else. -/
def comparesAs (i : Instr) (s : State) (p : Prop) : Prop :=
  completes i s (fun t => ∃ b, (b = true ↔ p) ∧ writesFpcond s t b)

/-- `n` is the number `v` rounded to an integer by `mode` (R249). -/
def roundsToInt (mode : IntRounding) (v : ℝ) (n : ℤ) : Prop :=
  match mode with
  | .nearest => isNearestEven v n
  | .zero => if 0 ≤ v then n = ⌊v⌋ else n = ⌈v⌉
  | .up => n = ⌈v⌉
  | .down => n = ⌊v⌋

/-- `to_word` of a value (R249) is `w`; nothing is said of `w` for a NaN, an infinity and an integer that does not
fit. -/
def isWordOf (mode : IntRounding) (a : FpValue) (w : Word) : Prop :=
  isNumber a → ∃ n, roundsToInt mode (realValue a) n ∧ (-2 ^ 31 ≤ n → n ≤ 2 ^ 31 - 1 → w.toInt = n)

end Sys2Proof.Machine
end

