-- ==== Sys2Proof/Certificates/Slice0/Obligations.lean ====
section
/-! DEFINITION. The statements about the model, by topic: encoding, the step, reset and the invariant, the shared
operations, taking an exception, and one family of instructions after the other. Where a word is written out, its bits
are those of the encoding that the cited rule prints. -/

section

open Sys2Proof Sys2Proof.Machine

/-- For every instruction, with every operand at every value its fields admit, decoding the word that encodes it gives
that instruction. -/
def Obligations.EveryInstructionDecodes : Prop :=
  ∀ i : Instr, decode (encode i) = .instr i

/-- For every word and every instruction: if the word decodes to the instruction, it is the word that encodes it, so
no two words decode to one instruction. -/
def Obligations.EveryDecodedWordIsAnEncoding : Prop :=
  ∀ (w : Word) (i : Instr), decode w = .instr i → encode i = w

/-- A word decodes as unassigned exactly when its selector has no cell in the maps R110 to R114. A step whose fetch
gives such a word, with no interrupt pending, is refused when BLANK_IS_RI is false and enters with code 10 when it is
true. That a word with the funct of eret and a bit of 24:6 set has an assigned selector is the model's choice: log
entry 29. -/
def Obligations.UnassignedWords : Prop :=
  ∀ (s : State) (w : Word),
    (decode w = .unassigned ↔ ¬ assignedSelector w) ∧
    (¬ assignedSelector w → s.beginStep.interruptPending = false → s.beginStep.fetch = .word w →
      (s.plat.blankIsRi = false → step s = .refused .unassignedWord) ∧
      (s.plat.blankIsRi = true → ∃ t, step s = .next t ∧ enters s.beginStep t 10#5 none))

/-- A word decodes as having a non-zero must-be-zero field exactly when its selector is assigned and it encodes no
instruction; a step whose fetch gives such a word is refused, whatever BLANK_IS_RI. The code fields of syscall, break
and the six traps and the rt field of cache and pref may hold any value. That bits 24:6 of eret are such a field is
the model's choice: log entry 29. -/
def Obligations.MustBeZeroFields : Prop :=
  (∀ (s : State) (w : Word),
    (decode w = .mustBeZero ↔ assignedSelector w ∧ ∀ i, encode i ≠ w) ∧
    (assignedSelector w → (∀ i, encode i ≠ w) → s.beginStep.interruptPending = false → s.beginStep.fetch = .word w →
      step s = .refused .mustBeZeroField)) ∧
  (∀ code : BitVec 20, hasWord (.syscall code) (0b000000#6 ++ code ++ 0b001100#6) ∧
    hasWord (.brk code) (0b000000#6 ++ code ++ 0b001101#6)) ∧
  (∀ (rs rt : RegNum) (code : BitVec 10), hasWord (.tge rs rt code) (0b000000#6 ++ rs ++ rt ++ code ++ 0b110000#6) ∧
    hasWord (.tgeu rs rt code) (0b000000#6 ++ rs ++ rt ++ code ++ 0b110001#6) ∧
    hasWord (.tlt rs rt code) (0b000000#6 ++ rs ++ rt ++ code ++ 0b110010#6) ∧
    hasWord (.tltu rs rt code) (0b000000#6 ++ rs ++ rt ++ code ++ 0b110011#6) ∧
    hasWord (.teq rs rt code) (0b000000#6 ++ rs ++ rt ++ code ++ 0b110100#6) ∧
    hasWord (.tne rs rt code) (0b000000#6 ++ rs ++ rt ++ code ++ 0b110110#6)) ∧
  (∀ (op : BitVec 5) (rs : RegNum) (imm : Half), hasWord (.cache op rs imm) (0b101111#6 ++ rs ++ op ++ imm)) ∧
  (∀ (hint : BitVec 5) (rs : RegNum) (imm : Half), hasWord (.pref hint rs imm) (0b110011#6 ++ rs ++ hint ++ imm))

/-- Eleven words that the instruction rules print as examples, one or more of each family, decode to the instructions
the rules say. -/
def Obligations.WrittenOutWordsDecode : Prop :=
  decode 0x02324020#32 = .instr (.add 8#5 17#5 18#5) ∧
  decode 0x2128FFFF#32 = .instr (.addi 8#5 9#5 0xFFFF#16) ∧
  decode 0x00094103#32 = .instr (.sra 8#5 9#5 4#5) ∧
  decode 0x11090003#32 = .instr (.beq 8#5 9#5 3#16) ∧
  decode 0x08100008#32 = .instr (.j 0x100008#26) ∧
  decode 0x8D280004#32 = .instr (.lw 8#5 9#5 4#16) ∧
  decode 0x012A001A#32 = .instr (.div 9#5 10#5) ∧
  decode 0x46220100#32 = .instr (.addD 4#5 0#5 2#5) ∧
  decode 0xF7A2FFF8#32 = .instr (.sdc1 2#5 29#5 0xFFF8#16) ∧
  decode 0x40886000#32 = .instr (.mtc0 8#5 12#5) ∧
  decode 0x42000018#32 = .instr .eret

/-- The word 0 decodes as sll with rt = rd = shamt = 0, and that instruction answers a next state in which nothing but
pc, npc and in_ds has changed. -/
def Obligations.ZeroWordChangesNothing : Prop :=
  decode 0#32 = .instr (.sll 0#5 0#5 0#5) ∧ ∀ s : State, completes (.sll 0#5 0#5 0#5) s (changesNothing s)

/-- With no interrupt pending, when the pc is aligned, within the user limit and served, and none of its four bytes
was stored by the run (or fetches are coherent), a step is exec of the instruction that the word at the pc, most
significant byte first, decodes to, on the state after what stands before the step. -/
def Obligations.StepRunsTheDecodedWord : Prop :=
  ∀ (s : State) (i : Instr),
    s.beginStep.interruptPending = false →
    s.beginStep.pc.toNat % 4 = 0 →
    ¬ aboveLimit s.beginStep s.beginStep.pc →
    served s.beginStep .fetch s.beginStep.pc 4 →
    (s.beginStep.plat.coherentIfetch = true ∨
      ∀ k, k < 4 → (s.beginStep.pc + BitVec.ofNat 32 k).toNat ∉ s.beginStep.stored) →
    decode (wordAt s.beginStep s.beginStep.pc) = .instr i →
    step s = exec i s.beginStep

/-- With no input left only the step count rises. With an input, Cause.IP[7:2] take its lines and no other bit of
Cause changes, each mapped byte that it writes reads as the last value written and every other byte as before, the
link, and the record of an own store into the linked word (log entry 15), stay set exactly when no such write lies in
the linked word, and nothing else changes. The model takes the platform as a list of inputs, one a step (log entry 8);
that a write of another agent to a byte mapped for no access does nothing is log entry 24. -/
def Obligations.BeforeEachStep : Prop :=
  ∀ s : State,
    (s.inputs = [] → s.beginStep = { s with time := s.time + 1 }) ∧
    (∀ i rest, s.inputs = i :: rest →
      s.beginStep = { s with
        time := s.time + 1, inputs := rest, cause := s.beginStep.cause, mem := s.beginStep.mem,
        llBit := s.beginStep.llBit, llTouched := s.beginStep.llTouched } ∧
      (∀ k, k < 6 → s.beginStep.cause.getLsbD (10 + k) = i.intLines.getLsbD k) ∧
      (∀ k, k < 10 ∨ 15 < k → s.beginStep.cause.getLsbD k = s.cause.getLsbD k) ∧
      (∀ a, s.beginStep.byte a =
        ((i.writes.reverse.find? (fun w => decide (w.1 = a) && mappedByte s.plat a)).map Prod.snd).getD
          (s.byte a)) ∧
      (s.beginStep.llBit = true ↔ s.llBit = true ∧
        ∀ w ∈ i.writes, mappedByte s.plat w.1 = true → w.1 &&& ~~~3#32 ≠ s.llAddr &&& ~~~3#32) ∧
      (s.beginStep.llTouched = true ↔ s.llTouched = true ∧
        ∀ w ∈ i.writes, mappedByte s.plat w.1 = true → w.1 &&& ~~~3#32 ≠ s.llAddr &&& ~~~3#32))

/-- At the start of a step, before the fetch: with Status.IE = 1, Status.EL = 0 and a request pending in Cause.IP that
Status.IM lets through, the step enters with code 0 and executes no instruction; otherwise the step fetches and
executes. -/
def Obligations.InterruptTaken : Prop :=
  ∀ s : State,
    ((s.beginStep.status.getLsbD 0 = true ∧ s.beginStep.status.getLsbD 1 = false ∧
        ∃ k, k < 8 ∧ s.beginStep.cause.getLsbD (8 + k) = true ∧ s.beginStep.status.getLsbD (8 + k) = true) →
      ∃ t, step s = .next t ∧ enters s.beginStep t 0#5 none) ∧
    (¬ (s.beginStep.status.getLsbD 0 = true ∧ s.beginStep.status.getLsbD 1 = false ∧
        ∃ k, k < 8 ∧ s.beginStep.cause.getLsbD (8 + k) = true ∧ s.beginStep.status.getLsbD (8 + k) = true) →
      step s = s.beginStep.fetchExecute)

/-- With no interrupt pending, a pc that is no multiple of 4, or in user mode at 0x80000000 or above, makes the step
enter with code 4 and BadVAddr = pc. When the machine's invariant holds and the pc is misaligned, in_ds is 0, so that
with EL clear EPC is the pc itself and Cause.BD is 0; what a misaligned pc with in_ds = 1 does, which no run reaches,
is the model's reading: log entry 21. -/
def Obligations.FetchAddressError : Prop :=
  ∀ s : State, s.beginStep.interruptPending = false →
    (s.beginStep.pc.toNat % 4 ≠ 0 ∨ aboveLimit s.beginStep s.beginStep.pc →
      ∃ t, step s = .next t ∧ enters s.beginStep t 4#5 (some s.beginStep.pc)) ∧
    (s.Inv → s.beginStep.pc.toNat % 4 ≠ 0 → s.beginStep.inDs = false ∧
      (s.beginStep.status.getLsbD 1 = false →
        ∃ t, step s = .next t ∧ t.epc = s.beginStep.pc ∧ t.cause.getLsbD 31 = false))

/-- With no interrupt pending, an aligned pc within the user limit of which some byte is not mapped for fetch or
answers with a bus error makes the step enter with code 6; BadVAddr is not written and nothing is executed. -/
def Obligations.FetchBusError : Prop :=
  ∀ s : State, s.beginStep.interruptPending = false →
    s.beginStep.pc.toNat % 4 = 0 → ¬ aboveLimit s.beginStep s.beginStep.pc →
    ¬ served s.beginStep .fetch s.beginStep.pc 4 →
    ∃ t, step s = .next t ∧ enters s.beginStep t 6#5 none

/-- When the fetch at the pc passes its checks and one of its four bytes was stored by the run, the step is refused
with COHERENT_IFETCH false; with COHERENT_IFETCH true it runs the instruction that the stored bytes decode to. -/
def Obligations.FetchOfStoredBytes : Prop :=
  ∀ s : State, s.beginStep.interruptPending = false →
    s.beginStep.pc.toNat % 4 = 0 → ¬ aboveLimit s.beginStep s.beginStep.pc →
    served s.beginStep .fetch s.beginStep.pc 4 →
    (∃ k, k < 4 ∧ (s.beginStep.pc + BitVec.ofNat 32 k).toNat ∈ s.beginStep.stored) →
    (s.plat.coherentIfetch = false → step s = .refused .fetchOfStoredByte) ∧
    (s.plat.coherentIfetch = true → ∀ i, decode (wordAt s.beginStep s.beginStep.pc) = .instr i →
      step s = exec i s.beginStep)

/-- With in_ds = 1 each of the eight branches and jumps of the integer unit, the two floating-point branches and eret
is refused. That eret is refused in user mode too, before CpU, is the order of R397 as the model reads it: log entry
16. -/
def Obligations.TransferInDelaySlotRefused : Prop :=
  ∀ (s : State) (rd rs rt : RegNum) (imm : Half) (address : BitVec 26), s.inDs = true →
    refuses (.beq rs rt imm) s .transferInDelaySlot ∧ refuses (.bne rs rt imm) s .transferInDelaySlot ∧
    refuses (.blez rs imm) s .transferInDelaySlot ∧ refuses (.bgtz rs imm) s .transferInDelaySlot ∧
    refuses (.j address) s .transferInDelaySlot ∧ refuses (.jal address) s .transferInDelaySlot ∧
    refuses (.jr rs) s .transferInDelaySlot ∧ refuses (.jalr rd rs) s .transferInDelaySlot ∧
    refuses (.bc1t imm) s .transferInDelaySlot ∧ refuses (.bc1f imm) s .transferInDelaySlot ∧
    refuses .eret s .transferInDelaySlot

/-- After reset on any platform and with any levels on the interrupt lines register 0 reads zero, the pc is the
platform's RESET_PC and npc RESET_PC + 4, in_ds is 0, Status is 0 (kernel mode, interrupts disabled and masked),
Cause.IP[7:2] are the lines, Cause.IP[1:0] and the unnamed bits of Cause are 0 and LLbit is 0. The reset of the model
is that on the default platform of R7 with the lines low. The values of the defaults (log entries 2, 3, 5, 6 and 7),
the low lines (8) and the empty memory and record of stores (7, 11 and 20) are named in the log; the values of the
other registers are the model's (9 and 10) and not stated. -/
def Obligations.ResetState : Prop :=
  (∀ (p : Platform) (lines : BitVec 6) (s : State), s = State.resetOn p lines →
    s.x 0#5 = 0#32 ∧ s.pc = p.resetPc ∧ s.npc = p.resetPc + 4#32 ∧ s.inDs = false ∧ s.status = 0#32 ∧
    s.cause.extractLsb' 10 6 = lines ∧ s.cause.extractLsb' 8 2 = 0#2 ∧ s.cause &&& 0x7fff0083#32 = 0#32 ∧
    s.llBit = false ∧ s.mem = [] ∧ s.stored = [] ∧ s.plat = p) ∧
  State.reset = State.resetOn Config.platformDefault 0#6 ∧
  State.reset.plat.resetPc = 0xBFC00000#32 ∧ State.reset.plat.excVector = 0x80000180#32 ∧
  State.reset.plat.blankIsRi = false ∧ State.reset.plat.scMayFail = true ∧ State.reset.plat.coherentIfetch = false

/-- The state after reset, on any platform and with any levels on the interrupt lines, has the machine's invariant:
the canonical form of memory, register 0, the unnamed bits of Status and Cause, the aligned link, npc and the delay
slot. -/
def Obligations.ResetHasTheInvariant : Prop :=
  (∀ (p : Platform) (lines : BitVec 6), (State.resetOn p lines).Inv) ∧ State.reset.Inv

/-- If a state has the invariant and a step from it answers a next state, the next state has the invariant: memory and
the list of stored addresses keep their form, register 0 holds zero, the unnamed bits of Status and Cause stay zero,
the linked address is aligned, npc is pc + 4 outside a delay slot, and the pc is aligned in a delay slot. -/
def Obligations.EveryStepKeepsTheInvariant : Prop :=
  ∀ s t : State, s.Inv → step s = .next t → t.Inv

/-- Register 0 reads zero in every state. A write changes its register and no other, and nothing at all for register
0. An addition into register 0 that overflows raises Ov, one that does not changes nothing but the program counters.
-/
def Obligations.RegisterZero : Prop :=
  ∀ (s : State) (n m rs rt : RegNum) (v : Word),
    s.x 0#5 = 0#32 ∧ (s.setX n v).x m = (if m = n ∧ n ≠ 0#5 then v else s.x m) ∧ s.setX 0#5 v = s ∧
    ((s.x rs).toInt + (s.x rt).toInt < -2 ^ 31 ∨ 2 ^ 31 - 1 < (s.x rs).toInt + (s.x rt).toInt →
      completes (.add 0#5 rs rt) s (fun t => enters s t 12#5 none)) ∧
    (-2 ^ 31 ≤ (s.x rs).toInt + (s.x rt).toInt → (s.x rs).toInt + (s.x rt).toInt ≤ 2 ^ 31 - 1 →
      completes (.add 0#5 rs rt) s (changesNothing s))

/-- A read of two or four bytes takes the byte at the lowest address as the most significant. A write of one, two or
four bytes puts the most significant byte at the lowest address and changes no other byte. A word read after it was
written is that word; its bytes and halfwords are the parts the byte order says. -/
def Obligations.MemoryIsBigEndian : Prop :=
  ∀ (s : State) (a : Word) (b : Byte) (h : Half) (w : Word),
    s.read8 a = s.byte a ∧ s.read16 a = s.byte a ++ s.byte (a + 1#32) ∧ s.read32 a = wordAt s a ∧
    bytesBecome s (s.write8 a b) a [b] ∧
    bytesBecome s (s.write16 a h) a [h.extractLsb' 8 8, h.extractLsb' 0 8] ∧
    bytesBecome s (s.write32 a w) a (bytesOf w) ∧
    (s.write32 a w).read32 a = w ∧ (s.write16 a h).read16 a = h ∧
    (s.write32 a w).read8 a = w.extractLsb' 24 8 ∧ (s.write32 a w).read16 (a + 2#32) = w.extractLsb' 0 16

/-- Whenever an instruction answers a next state: HI is unchanged unless it is mult, multu, div, divu or mthi; LO is
unchanged unless it is mult, multu, div, divu or mtlo; FPcond is unchanged unless it is one of the 32 compares. -/
def Obligations.HiLoAndFpcondWriters : Prop :=
  ∀ (i : Instr) (s t : State), exec i s = .next t →
    (match i with
      | .mult _ _ | .multu _ _ | .div _ _ | .divu _ _ | .mthi _ => True
      | _ => t.hi = s.hi) ∧
    (match i with
      | .mult _ _ | .multu _ _ | .div _ _ | .divu _ _ | .mtlo _ => True
      | _ => t.lo = s.lo) ∧
    (match i with
      | .cFS _ _ | .cFD _ _ | .cUnS _ _ | .cUnD _ _ | .cEqS _ _ | .cEqD _ _ | .cUeqS _ _ | .cUeqD _ _ | .cOltS _ _
      | .cOltD _ _ | .cUltS _ _ | .cUltD _ _ | .cOleS _ _ | .cOleD _ _ | .cUleS _ _ | .cUleD _ _ | .cSfS _ _
      | .cSfD _ _ | .cNgleS _ _ | .cNgleD _ _ | .cSeqS _ _ | .cSeqD _ _ | .cNglS _ _ | .cNglD _ _ | .cLtS _ _
      | .cLtD _ _ | .cNgeS _ _ | .cNgeD _ _ | .cLeS _ _ | .cLeD _ _ | .cNgtS _ _ | .cNgtD _ _ => True
      | _ => t.fpcond = s.fpcond)

/-- Whenever an instruction answers a next state: memory and the record of stored bytes are unchanged unless it is sb,
sh, sw, swl, swr, sc, swc1 or sdc1; the platform's parameters, its coming inputs and the step count are unchanged. -/
def Obligations.MemoryWriters : Prop :=
  ∀ (i : Instr) (s t : State), exec i s = .next t →
    (match i with
      | .sb _ _ _ | .sh _ _ _ | .sw _ _ _ | .swl _ _ _ | .swr _ _ _ | .sc _ _ _ | .swc1 _ _ _ | .sdc1 _ _ _ => True
      | _ => t.mem = s.mem ∧ t.stored = s.stored) ∧
    t.plat = s.plat ∧ t.inputs = s.inputs ∧ t.time = s.time

/-- In user mode, whenever an instruction answers a next state, either Status, Cause, EPC and BadVAddr are all
unchanged (so the machine stays in user mode), or an exception was taken: control is at EXC_VECTOR, EL is set and the
rest of Status kept, and EPC is the address of the instruction or, in a delay slot, of its branch. -/
def Obligations.UserModeRaisesPrivilegeOnlyByException : Prop :=
  ∀ (i : Instr) (s t : State), inUserMode s → exec i s = .next t →
    (t.status = s.status ∧ t.cause = s.cause ∧ t.epc = s.epc ∧ t.badVAddr = s.badVAddr) ∨
    (t.pc = s.plat.excVector ∧ t.npc = s.plat.excVector + 4#32 ∧ t.inDs = false ∧ t.status = s.status ||| 2#32 ∧
      t.epc = if s.inDs then s.pc - 4#32 else s.pc)

/-- Trap entry with each of the eleven codes: EPC is the pc, or pc - 4 in a delay slot, and Cause.BD is in_ds, when EL
was 0, and both are kept when it was 1; Cause.ExcCode is the code; BadVAddr is written for codes 4 and 5 only; EL
becomes 1 and no other bit of Status changes; pc is EXC_VECTOR, npc EXC_VECTOR + 4, in_ds 0; no register, memory byte,
HI, LO, FPcond or link changes. -/
def Obligations.TrapEntry : Prop :=
  ∀ (s : State) (a : Word),
    (∃ t, s.raise .int = .next t ∧ enters s t 0#5 none) ∧
    (∃ t, s.raiseAddress .adel a = .next t ∧ enters s t 4#5 (some a)) ∧
    (∃ t, s.raiseAddress .ades a = .next t ∧ enters s t 5#5 (some a)) ∧
    (∃ t, s.raise .ibe = .next t ∧ enters s t 6#5 none) ∧
    (∃ t, s.raise .dbe = .next t ∧ enters s t 7#5 none) ∧
    (∃ t, s.raise .sys = .next t ∧ enters s t 8#5 none) ∧
    (∃ t, s.raise .bp = .next t ∧ enters s t 9#5 none) ∧
    (∃ t, s.raise .ri = .next t ∧ enters s t 10#5 none) ∧
    (∃ t, s.raise .cpu = .next t ∧ enters s t 11#5 none) ∧
    (∃ t, s.raise .ov = .next t ∧ enters s t 12#5 none) ∧
    (∃ t, s.raise .tr = .next t ∧ enters s t 13#5 none)

/-- With EL = 1 at the start of a step no interrupt is pending, whatever the requests, so the step fetches and
executes. An exception raised while EL = 1 enters at EXC_VECTOR with the new code (and BadVAddr for codes 4 and 5),
leaves EPC and Cause.BD as they were, and EL set. -/
def Obligations.NestedException : Prop :=
  ∀ s : State, s.status.getLsbD 1 = true →
    step s = s.beginStep.fetchExecute ∧
    ∀ (c : ExcCode) (v : Option Word),
      (s.trapEntry c v).epc = s.epc ∧ (s.trapEntry c v).cause.getLsbD 31 = s.cause.getLsbD 31 ∧
      (s.trapEntry c v).cause.extractLsb' 2 5 = c.number ∧ (s.trapEntry c v).status = s.status ∧
      (s.trapEntry c v).badVAddr = v.getD s.badVAddr ∧ (s.trapEntry c v).pc = s.plat.excVector

/-- eret in a delay slot is refused. Outside a delay slot it enters with code 11 in user mode, and in kernel mode
answers a next state in which EL and LLbit are 0, pc is EPC, npc is EPC + 4, in_ds is 0 and nothing else has changed.
That the refusal comes before CpU in user mode is the order of R397, where the pseudocode of R332 tests the mode
first: log entry 16. -/
def Obligations.ExceptionReturn : Prop :=
  ∀ s : State, hasWord (.eret) (0b010000#6 ++ 0b1#1 ++ 0b0000000000000000000#19 ++ 0b011000#6) ∧
    (s.inDs = true → refuses .eret s .transferInDelaySlot) ∧
    (inUserMode s → s.inDs = false → completes .eret s (fun t => enters s t 11#5 none)) ∧
    (¬ inUserMode s → s.inDs = false → completes .eret s (fun t =>
      t = { s with
        status := s.status &&& ~~~2#32, llBit := false, llTouched := false, pc := s.epc, npc := s.epc + 4#32,
        inDs := false } ∧
      sameBytes s t))

/-- syscall enters with code 8, break with code 9, whatever the code field, and lwc2, ldc2, swc2, sdc2 enter with code
11, whatever the address, in every state. -/
def Obligations.InstructionsThatAlwaysRaise : Prop :=
  (∀ (s : State) (code : BitVec 20),
    (hasWord (.syscall code) (0b000000#6 ++ code ++ 0b001100#6) ∧ completes (.syscall code) s
      (fun t => enters s t 8#5 none)) ∧
    (hasWord (.brk code) (0b000000#6 ++ code ++ 0b001101#6) ∧ completes (.brk code) s
      (fun t => enters s t 9#5 none))) ∧
  (∀ (s : State) (rt rs : RegNum) (imm : Half),
    (hasWord (.lwc2 rt rs imm) (0b110010#6 ++ rs ++ rt ++ imm) ∧ completes (.lwc2 rt rs imm) s
      (fun t => enters s t 11#5 none)) ∧
    (hasWord (.ldc2 rt rs imm) (0b110110#6 ++ rs ++ rt ++ imm) ∧ completes (.ldc2 rt rs imm) s
      (fun t => enters s t 11#5 none)) ∧
    (hasWord (.swc2 rt rs imm) (0b111010#6 ++ rs ++ rt ++ imm) ∧ completes (.swc2 rt rs imm) s
      (fun t => enters s t 11#5 none)) ∧
    (hasWord (.sdc2 rt rs imm) (0b111110#6 ++ rs ++ rt ++ imm) ∧ completes (.sdc2 rt rs imm) s
      (fun t => enters s t 11#5 none)))

/-- tge, tgeu, tlt, tltu, teq, tne, whatever the code field: when the comparison of the two registers holds the
instruction enters with code 13; when it does not, the instruction answers a next state in which nothing but the
program counters has changed. -/
def Obligations.TrapInstructions : Prop :=
  ∀ (s : State) (rs rt : RegNum) (code : BitVec 10),
    (hasWord (.tge rs rt code) (0b000000#6 ++ rs ++ rt ++ code ++ 0b110000#6) ∧
      ((s.x rt).toInt ≤ (s.x rs).toInt → completes (.tge rs rt code) s (fun t => enters s t 13#5 none)) ∧
      (¬ ((s.x rt).toInt ≤ (s.x rs).toInt) → completes (.tge rs rt code) s (changesNothing s))) ∧
    (hasWord (.tgeu rs rt code) (0b000000#6 ++ rs ++ rt ++ code ++ 0b110001#6) ∧
      ((s.x rt).toNat ≤ (s.x rs).toNat → completes (.tgeu rs rt code) s (fun t => enters s t 13#5 none)) ∧
      (¬ ((s.x rt).toNat ≤ (s.x rs).toNat) → completes (.tgeu rs rt code) s (changesNothing s))) ∧
    (hasWord (.tlt rs rt code) (0b000000#6 ++ rs ++ rt ++ code ++ 0b110010#6) ∧
      ((s.x rs).toInt < (s.x rt).toInt → completes (.tlt rs rt code) s (fun t => enters s t 13#5 none)) ∧
      (¬ ((s.x rs).toInt < (s.x rt).toInt) → completes (.tlt rs rt code) s (changesNothing s))) ∧
    (hasWord (.tltu rs rt code) (0b000000#6 ++ rs ++ rt ++ code ++ 0b110011#6) ∧
      ((s.x rs).toNat < (s.x rt).toNat → completes (.tltu rs rt code) s (fun t => enters s t 13#5 none)) ∧
      (¬ ((s.x rs).toNat < (s.x rt).toNat) → completes (.tltu rs rt code) s (changesNothing s))) ∧
    (hasWord (.teq rs rt code) (0b000000#6 ++ rs ++ rt ++ code ++ 0b110100#6) ∧
      (s.x rs = s.x rt → completes (.teq rs rt code) s (fun t => enters s t 13#5 none)) ∧
      (¬ (s.x rs = s.x rt) → completes (.teq rs rt code) s (changesNothing s))) ∧
    (hasWord (.tne rs rt code) (0b000000#6 ++ rs ++ rt ++ code ++ 0b110110#6) ∧
      (s.x rs ≠ s.x rt → completes (.tne rs rt code) s (fun t => enters s t 13#5 none)) ∧
      (¬ (s.x rs ≠ s.x rt) → completes (.tne rs rt code) s (changesNothing s)))

/-- mfc0 of a control register other than 8, 12, 13 and 14 is refused. Of one of these four it enters with code 11 in
user mode, and in kernel mode writes the control register to the general register, with the unnamed bits of Status and
Cause zero in a state that has the machine's invariant. That the refusal comes before CpU in user mode is the order of
R397, where the pseudocode of R330 tests the mode first: log entry 16. -/
def Obligations.ReadControlRegister : Prop :=
  ∀ (s : State) (rt rd : RegNum), hasWord (.mfc0 rt rd)
    (0b010000#6 ++ 0b00000#5 ++ rt ++ rd ++ 0b00000#5 ++ 0b000000#6) ∧
    (rd ≠ 8#5 → rd ≠ 12#5 → rd ≠ 13#5 → rd ≠ 14#5 → refuses (.mfc0 rt rd) s .undescribedControlRegister) ∧
    (inUserMode s → rd = 8#5 ∨ rd = 12#5 ∨ rd = 13#5 ∨ rd = 14#5 →
      completes (.mfc0 rt rd) s (fun t => enters s t 11#5 none)) ∧
    (¬ inUserMode s →
      (rd = 8#5 → completes (.mfc0 rt rd) s (fun t => writesX s t rt s.badVAddr)) ∧
      (rd = 12#5 → completes (.mfc0 rt rd) s (fun t =>
        writesX s t rt s.status ∧ (s.Inv → t.x rt &&& 0xffff00ec#32 = 0#32))) ∧
      (rd = 13#5 → completes (.mfc0 rt rd) s (fun t =>
        writesX s t rt s.cause ∧ (s.Inv → t.x rt &&& 0x7fff0083#32 = 0#32))) ∧
      (rd = 14#5 → completes (.mfc0 rt rd) s (fun t => writesX s t rt s.epc)))

/-- mtc0 of a control register other than 8, 12, 13 and 14 is refused. Of one of these four it enters with code 11 in
user mode, and in kernel mode writes IM, UM, EL and IE of Status, IP[1:0] of Cause, all of EPC, nothing for BadVAddr,
and changes nothing else but the program counters. That the refusal comes before CpU in user mode is the order of
R397, where the pseudocode of R331 tests the mode first: log entry 16. -/
def Obligations.WriteControlRegister : Prop :=
  ∀ (s : State) (rt rd : RegNum), hasWord (.mtc0 rt rd)
    (0b010000#6 ++ 0b00100#5 ++ rt ++ rd ++ 0b00000#5 ++ 0b000000#6) ∧
    (rd ≠ 8#5 → rd ≠ 12#5 → rd ≠ 13#5 → rd ≠ 14#5 → refuses (.mtc0 rt rd) s .undescribedControlRegister) ∧
    (inUserMode s → rd = 8#5 ∨ rd = 12#5 ∨ rd = 13#5 ∨ rd = 14#5 →
      completes (.mtc0 rt rd) s (fun t => enters s t 11#5 none)) ∧
    (¬ inUserMode s →
      (rd = 12#5 → completes (.mtc0 rt rd) s (fun t => sameBytes s t ∧
        t = { s with
          status := (s.status &&& ~~~0x0000ff13#32) ||| (s.x rt &&& 0x0000ff13#32),
          pc := s.npc, npc := s.npc + 4#32, inDs := false })) ∧
      (rd = 13#5 → completes (.mtc0 rt rd) s (fun t => sameBytes s t ∧
        t = { s with
          cause := (s.cause &&& ~~~0x00000300#32) ||| (s.x rt &&& 0x00000300#32),
          pc := s.npc, npc := s.npc + 4#32, inDs := false })) ∧
      (rd = 14#5 → completes (.mtc0 rt rd) s (fun t => sameBytes s t ∧
        t = { s with epc := s.x rt, pc := s.npc, npc := s.npc + 4#32, inDs := false })) ∧
      (rd = 8#5 → completes (.mtc0 rt rd) s (changesNothing s)))

/-- sync and pref answer a next state in which nothing but the program counters has changed, in every mode and for
every address; so does cache in kernel mode, and in user mode it enters with code 11. -/
def Obligations.InstructionsWithoutEffect : Prop :=
  ∀ (s : State) (op hint : BitVec 5) (rs : RegNum) (imm : Half),
    (hasWord (.sync) (0b000000#6 ++ 0b00000000000000000000#20 ++ 0b001111#6) ∧
      completes .sync s (changesNothing s)) ∧
    (hasWord (.pref hint rs imm) (0b110011#6 ++ rs ++ hint ++ imm) ∧
      completes (.pref hint rs imm) s (changesNothing s)) ∧
    (hasWord (.cache op rs imm) (0b101111#6 ++ rs ++ op ++ imm) ∧
      (¬ inUserMode s → completes (.cache op rs imm) s (changesNothing s)) ∧
      (inUserMode s → completes (.cache op rs imm) s (fun t => enters s t 11#5 none)))

/-- addu, subu, and, or, xor, nor, slt, sltu write the result the rule gives to rd; movz and movn write rs to rd when
rt is zero, respectively not zero, and nothing otherwise. Nothing else changes but the program counters; register 0 as
destination discards the write. -/
def Obligations.RegisterOperations : Prop :=
  ∀ (s : State) (rd rs rt : RegNum),
    (hasWord (.addu rd rs rt) (0b000000#6 ++ rs ++ rt ++ rd ++ 0b00000#5 ++ 0b100001#6) ∧
      completes (.addu rd rs rt) s (fun t => writesX s t rd (s.x rs + s.x rt))) ∧
    (hasWord (.subu rd rs rt) (0b000000#6 ++ rs ++ rt ++ rd ++ 0b00000#5 ++ 0b100011#6) ∧
      completes (.subu rd rs rt) s (fun t => writesX s t rd (s.x rs - s.x rt))) ∧
    (hasWord (.and rd rs rt) (0b000000#6 ++ rs ++ rt ++ rd ++ 0b00000#5 ++ 0b100100#6) ∧
      completes (.and rd rs rt) s (fun t => writesX s t rd (s.x rs &&& s.x rt))) ∧
    (hasWord (.or rd rs rt) (0b000000#6 ++ rs ++ rt ++ rd ++ 0b00000#5 ++ 0b100101#6) ∧
      completes (.or rd rs rt) s (fun t => writesX s t rd (s.x rs ||| s.x rt))) ∧
    (hasWord (.xor rd rs rt) (0b000000#6 ++ rs ++ rt ++ rd ++ 0b00000#5 ++ 0b100110#6) ∧
      completes (.xor rd rs rt) s (fun t => writesX s t rd (s.x rs ^^^ s.x rt))) ∧
    (hasWord (.nor rd rs rt) (0b000000#6 ++ rs ++ rt ++ rd ++ 0b00000#5 ++ 0b100111#6) ∧
      completes (.nor rd rs rt) s (fun t => writesX s t rd (~~~(s.x rs ||| s.x rt)))) ∧
    (hasWord (.slt rd rs rt) (0b000000#6 ++ rs ++ rt ++ rd ++ 0b00000#5 ++ 0b101010#6) ∧
      completes (.slt rd rs rt) s
        (fun t => writesX s t rd (if (s.x rs).toInt < (s.x rt).toInt then 1#32 else 0#32))) ∧
    (hasWord (.sltu rd rs rt) (0b000000#6 ++ rs ++ rt ++ rd ++ 0b00000#5 ++ 0b101011#6) ∧
      completes (.sltu rd rs rt) s
        (fun t => writesX s t rd (if (s.x rs).toNat < (s.x rt).toNat then 1#32 else 0#32))) ∧
    (hasWord (.movz rd rs rt) (0b000000#6 ++ rs ++ rt ++ rd ++ 0b00000#5 ++ 0b001010#6) ∧
      (s.x rt = 0#32 → completes (.movz rd rs rt) s (fun t => writesX s t rd (s.x rs))) ∧
      (s.x rt ≠ 0#32 → completes (.movz rd rs rt) s (changesNothing s))) ∧
    (hasWord (.movn rd rs rt) (0b000000#6 ++ rs ++ rt ++ rd ++ 0b00000#5 ++ 0b001011#6) ∧
      (s.x rt ≠ 0#32 → completes (.movn rd rs rt) s (fun t => writesX s t rd (s.x rs))) ∧
      (s.x rt = 0#32 → completes (.movn rd rs rt) s (changesNothing s)))

/-- addiu, slti, sltiu with the sign-extended immediate, andi, ori, xori with the zero-extended one, and lui with the
immediate in the upper half, write the result the rule gives to rt. Nothing else changes but the program counters;
register 0 as destination discards the write. -/
def Obligations.ImmediateOperations : Prop :=
  ∀ (s : State) (rt rs : RegNum) (imm : Half),
    (hasWord (.addiu rt rs imm) (0b001001#6 ++ rs ++ rt ++ imm) ∧
      completes (.addiu rt rs imm) s (fun t => writesX s t rt (s.x rs + imm.signExtend 32))) ∧
    (hasWord (.andi rt rs imm) (0b001100#6 ++ rs ++ rt ++ imm) ∧
      completes (.andi rt rs imm) s (fun t => writesX s t rt (s.x rs &&& (0#16 ++ imm : Word)))) ∧
    (hasWord (.ori rt rs imm) (0b001101#6 ++ rs ++ rt ++ imm) ∧
      completes (.ori rt rs imm) s (fun t => writesX s t rt (s.x rs ||| (0#16 ++ imm : Word)))) ∧
    (hasWord (.xori rt rs imm) (0b001110#6 ++ rs ++ rt ++ imm) ∧
      completes (.xori rt rs imm) s (fun t => writesX s t rt (s.x rs ^^^ (0#16 ++ imm : Word)))) ∧
    (hasWord (.lui rt imm) (0b001111#6 ++ 0b00000#5 ++ rt ++ imm) ∧
      completes (.lui rt imm) s (fun t => writesX s t rt ((imm ++ 0#16 : Word)))) ∧
    (hasWord (.slti rt rs imm) (0b001010#6 ++ rs ++ rt ++ imm) ∧
      completes (.slti rt rs imm) s
        (fun t => writesX s t rt (if (s.x rs).toInt < (imm.signExtend 32).toInt then 1#32 else 0#32))) ∧
    (hasWord (.sltiu rt rs imm) (0b001011#6 ++ rs ++ rt ++ imm) ∧
      completes (.sltiu rt rs imm) s
        (fun t => writesX s t rt (if (s.x rs).toNat < (imm.signExtend 32).toNat then 1#32 else 0#32)))

/-- sll and sllv multiply rt by a power of two modulo 2^32, srl and srlv divide it as an unsigned number, sra and srav
divide it as a signed number rounding toward minus infinity; the amount is shamt, or rs modulo 32. The result goes to
rd; nothing else changes but the program counters. -/
def Obligations.Shifts : Prop :=
  ∀ (s : State) (rd rt rs : RegNum) (shamt : BitVec 5),
    (hasWord (.sll rd rt shamt) (0b000000#6 ++ 0b00000#5 ++ rt ++ rd ++ shamt ++ 0b000000#6) ∧
      completes (.sll rd rt shamt) s
        (fun t => writesX s t rd (BitVec.ofNat 32 ((s.x rt).toNat * 2 ^ shamt.toNat)))) ∧
    (hasWord (.srl rd rt shamt) (0b000000#6 ++ 0b00000#5 ++ rt ++ rd ++ shamt ++ 0b000010#6) ∧
      completes (.srl rd rt shamt) s
        (fun t => writesX s t rd (BitVec.ofNat 32 ((s.x rt).toNat / 2 ^ shamt.toNat)))) ∧
    (hasWord (.sra rd rt shamt) (0b000000#6 ++ 0b00000#5 ++ rt ++ rd ++ shamt ++ 0b000011#6) ∧
      completes (.sra rd rt shamt) s
        (fun t => writesX s t rd (BitVec.ofInt 32 ((s.x rt).toInt / 2 ^ shamt.toNat)))) ∧
    (hasWord (.sllv rd rt rs) (0b000000#6 ++ rs ++ rt ++ rd ++ 0b00000#5 ++ 0b000100#6) ∧
      completes (.sllv rd rt rs) s
        (fun t => writesX s t rd (BitVec.ofNat 32 ((s.x rt).toNat * 2 ^ ((s.x rs).toNat % 32))))) ∧
    (hasWord (.srlv rd rt rs) (0b000000#6 ++ rs ++ rt ++ rd ++ 0b00000#5 ++ 0b000110#6) ∧
      completes (.srlv rd rt rs) s
        (fun t => writesX s t rd (BitVec.ofNat 32 ((s.x rt).toNat / 2 ^ ((s.x rs).toNat % 32))))) ∧
    (hasWord (.srav rd rt rs) (0b000000#6 ++ rs ++ rt ++ rd ++ 0b00000#5 ++ 0b000111#6) ∧
      completes (.srav rd rt rs) s
        (fun t => writesX s t rd (BitVec.ofInt 32 ((s.x rt).toInt / 2 ^ ((s.x rs).toNat % 32)))))

/-- The exact signed sum of add and addi (with the sign-extended immediate) and the exact signed difference of sub:
when it lies in -2^31 .. 2^31 - 1 it is written to the destination and nothing else changes but the program counters;
otherwise the instruction enters with code 12 and the destination keeps its value. -/
def Obligations.AddSubWithOverflow : Prop :=
  ∀ (s : State) (rd rs rt : RegNum) (imm : Half),
    (hasWord (.add rd rs rt) (0b000000#6 ++ rs ++ rt ++ rd ++ 0b00000#5 ++ 0b100000#6) ∧
      (-2 ^ 31 ≤ (s.x rs).toInt + (s.x rt).toInt → (s.x rs).toInt + (s.x rt).toInt ≤ 2 ^ 31 - 1 →
        completes (.add rd rs rt) s (fun t => writesX s t rd (BitVec.ofInt 32 ((s.x rs).toInt + (s.x rt).toInt)))) ∧
      ((s.x rs).toInt + (s.x rt).toInt < -2 ^ 31 ∨ 2 ^ 31 - 1 < (s.x rs).toInt + (s.x rt).toInt →
        completes (.add rd rs rt) s (fun t => enters s t 12#5 none))) ∧
    (hasWord (.addi rt rs imm) (0b001000#6 ++ rs ++ rt ++ imm) ∧
      (-2 ^ 31 ≤ (s.x rs).toInt + (imm.signExtend 32).toInt →
        (s.x rs).toInt + (imm.signExtend 32).toInt ≤ 2 ^ 31 - 1 →
        completes (.addi rt rs imm) s
          (fun t => writesX s t rt (BitVec.ofInt 32 ((s.x rs).toInt + (imm.signExtend 32).toInt)))) ∧
      ((s.x rs).toInt + (imm.signExtend 32).toInt < -2 ^ 31 ∨
        2 ^ 31 - 1 < (s.x rs).toInt + (imm.signExtend 32).toInt → completes (.addi rt rs imm) s
        (fun t => enters s t 12#5 none))) ∧
    (hasWord (.sub rd rs rt) (0b000000#6 ++ rs ++ rt ++ rd ++ 0b00000#5 ++ 0b100010#6) ∧
      (-2 ^ 31 ≤ (s.x rs).toInt - (s.x rt).toInt → (s.x rs).toInt - (s.x rt).toInt ≤ 2 ^ 31 - 1 →
        completes (.sub rd rs rt) s (fun t => writesX s t rd (BitVec.ofInt 32 ((s.x rs).toInt - (s.x rt).toInt)))) ∧
      ((s.x rs).toInt - (s.x rt).toInt < -2 ^ 31 ∨ 2 ^ 31 - 1 < (s.x rs).toInt - (s.x rt).toInt →
        completes (.sub rd rs rt) s (fun t => enters s t 12#5 none)))

/-- The exact sum of two signed words lies outside -2^31 .. 2^31 - 1 exactly when both have the same sign and the
32-bit sum has the other; the exact difference exactly when they have different signs and the 32-bit difference has
not the sign of the first. Exactly then the model's addSigned and subSigned give no result, and otherwise they give
that 32-bit result. -/
def Obligations.OverflowIsSeenInTheSigns : Prop :=
  ∀ a b : Word,
    (a.toInt + b.toInt < -2 ^ 31 ∨ 2 ^ 31 - 1 < a.toInt + b.toInt ↔ a.msb = b.msb ∧ (a + b).msb ≠ a.msb) ∧
    (a.toInt - b.toInt < -2 ^ 31 ∨ 2 ^ 31 - 1 < a.toInt - b.toInt ↔ a.msb ≠ b.msb ∧ (a - b).msb ≠ a.msb) ∧
    addSigned a b = (if a.msb = b.msb ∧ (a + b).msb ≠ a.msb then none else some (a + b)) ∧
    subSigned a b = (if a.msb ≠ b.msb ∧ (a - b).msb ≠ a.msb then none else some (a - b))

/-- beq, bne, blez, bgtz, bc1t, bc1f outside a delay slot answer a next state whose pc is the delay slot, whose npc is
pc + 4 plus the sign-extended word offset when the condition holds and the instruction after the delay slot when it
does not, with in_ds set in both cases; nothing else changes. In a delay slot they are refused. -/
def Obligations.ConditionalBranches : Prop :=
  ∀ (s : State) (rs rt : RegNum) (imm : Half),
    (hasWord (.beq rs rt imm) (0b000100#6 ++ rs ++ rt ++ imm) ∧
      (s.inDs = false → completes (.beq rs rt imm) s
        (fun t => transfersTo s t (s.x rs = s.x rt) (s.pc + 4#32 + (imm ++ 0#2).signExtend 32))) ∧
      (s.inDs = true → refuses (.beq rs rt imm) s .transferInDelaySlot)) ∧
    (hasWord (.bne rs rt imm) (0b000101#6 ++ rs ++ rt ++ imm) ∧
      (s.inDs = false → completes (.bne rs rt imm) s
        (fun t => transfersTo s t (s.x rs ≠ s.x rt) (s.pc + 4#32 + (imm ++ 0#2).signExtend 32))) ∧
      (s.inDs = true → refuses (.bne rs rt imm) s .transferInDelaySlot)) ∧
    (hasWord (.blez rs imm) (0b000110#6 ++ rs ++ 0b00000#5 ++ imm) ∧
      (s.inDs = false → completes (.blez rs imm) s
        (fun t => transfersTo s t ((s.x rs).toInt ≤ 0) (s.pc + 4#32 + (imm ++ 0#2).signExtend 32))) ∧
      (s.inDs = true → refuses (.blez rs imm) s .transferInDelaySlot)) ∧
    (hasWord (.bgtz rs imm) (0b000111#6 ++ rs ++ 0b00000#5 ++ imm) ∧
      (s.inDs = false → completes (.bgtz rs imm) s
        (fun t => transfersTo s t (0 < (s.x rs).toInt) (s.pc + 4#32 + (imm ++ 0#2).signExtend 32))) ∧
      (s.inDs = true → refuses (.bgtz rs imm) s .transferInDelaySlot)) ∧
    (hasWord (.bc1t imm) (0b010001#6 ++ 0b01000#5 ++ 0b00001#5 ++ imm) ∧
      (s.inDs = false → completes (.bc1t imm) s
        (fun t => transfersTo s t (s.fpcond = true) (s.pc + 4#32 + (imm ++ 0#2).signExtend 32))) ∧
      (s.inDs = true → refuses (.bc1t imm) s .transferInDelaySlot)) ∧
    (hasWord (.bc1f imm) (0b010001#6 ++ 0b01000#5 ++ 0b00000#5 ++ imm) ∧
      (s.inDs = false → completes (.bc1f imm) s
        (fun t => transfersTo s t (s.fpcond = false) (s.pc + 4#32 + (imm ++ 0#2).signExtend 32))) ∧
      (s.inDs = true → refuses (.bc1f imm) s .transferInDelaySlot))

/-- Outside a delay slot j and jal go to the address field in the region of pc + 4, jr and jalr to the value the
register held, after the delay slot; jal writes pc + 8 to register 31, jalr to rd. jalr with rd = rs and rd not 0 is
refused. Nothing else changes. -/
def Obligations.JumpsAndLinks : Prop :=
  ∀ (s : State) (rd rs : RegNum) (address : BitVec 26), s.inDs = false →
    (hasWord (.j address) (0b000010#6 ++ address) ∧ completes (.j address) s
      (fun t => transfersTo s t True ((s.pc + 4#32).extractLsb' 28 4 ++ address ++ 0#2))) ∧
    (hasWord (.jal address) (0b000011#6 ++ address) ∧ completes (.jal address) s
      (fun t => linksTo s t 31#5 (s.pc + 8#32) ((s.pc + 4#32).extractLsb' 28 4 ++ address ++ 0#2))) ∧
    (hasWord (.jr rs) (0b000000#6 ++ rs ++ 0b00000#5 ++ 0b00000#5 ++ 0b00000#5 ++ 0b001000#6) ∧ completes (.jr rs) s
      (fun t => transfersTo s t True (s.x rs))) ∧
    (hasWord (.jalr rd rs) (0b000000#6 ++ rs ++ 0b00000#5 ++ rd ++ 0b00000#5 ++ 0b001001#6) ∧
      (rd ≠ rs ∨ rd = 0#5 → completes (.jalr rd rs) s (fun t => linksTo s t rd (s.pc + 8#32) (s.x rs))) ∧
      (rd = rs → rd ≠ 0#5 → refuses (.jalr rd rs) s .jalrLinkIsTarget))

/-- lbu and lhu write the zero-extended, lb and lh the sign-extended byte or big-endian halfword at base plus
displacement to rt and change nothing else but the program counters. A misaligned halfword address or an address above
the user limit raises AdEL with BadVAddr; otherwise an access that is not served raises DBE. -/
def Obligations.ByteAndHalfwordLoads : Prop :=
  ∀ (s : State) (rt rs : RegNum) (imm : Half) (a : Word), a = s.x rs + imm.signExtend 32 →
    (hasWord (.lbu rt rs imm) (0b100100#6 ++ rs ++ rt ++ imm) ∧
      accesses (.lbu rt rs imm) s .load 1 a a 1 (fun t => writesX s t rt ((s.byte a).zeroExtend 32))) ∧
    (hasWord (.lb rt rs imm) (0b100000#6 ++ rs ++ rt ++ imm) ∧
      accesses (.lb rt rs imm) s .load 1 a a 1 (fun t => writesX s t rt ((s.byte a).signExtend 32))) ∧
    (hasWord (.lhu rt rs imm) (0b100101#6 ++ rs ++ rt ++ imm) ∧
      accesses (.lhu rt rs imm) s .load 2 a a 2
        (fun t => writesX s t rt ((s.byte a ++ s.byte (a + 1#32)).zeroExtend 32))) ∧
    (hasWord (.lh rt rs imm) (0b100001#6 ++ rs ++ rt ++ imm) ∧
      accesses (.lh rt rs imm) s .load 2 a a 2
        (fun t => writesX s t rt ((s.byte a ++ s.byte (a + 1#32)).signExtend 32)))

/-- lw writes the word at base plus displacement to rt; ll writes it and sets the link there; lwc1 writes it to a
floating-point register; ldc1 with an even register writes the two words to the pair, the first to the lower number,
and is refused with an odd one. Nothing else changes but the program counters. Failed checks raise AdEL with BadVAddr
or DBE. -/
def Obligations.WordAndDoubleLoads : Prop :=
  ∀ (s : State) (rt ft rs : RegNum) (imm : Half) (a : Word), a = s.x rs + imm.signExtend 32 →
    (hasWord (.lw rt rs imm) (0b100011#6 ++ rs ++ rt ++ imm) ∧
      accesses (.lw rt rs imm) s .load 4 a a 4 (fun t => writesX s t rt (wordAt s a))) ∧
    (hasWord (.ll rt rs imm) (0b110000#6 ++ rs ++ rt ++ imm) ∧
      accesses (.ll rt rs imm) s .load 4 a a 4 (fun t => linksWord s t rt (wordAt s a) a)) ∧
    (hasWord (.lwc1 ft rs imm) (0b110001#6 ++ rs ++ ft ++ imm) ∧
      accesses (.lwc1 ft rs imm) s .load 4 a a 4 (fun t => writesF s t ft (wordAt s a))) ∧
    (hasWord (.ldc1 ft rs imm) (0b110101#6 ++ rs ++ ft ++ imm) ∧
      (ft.getLsbD 0 = true → refuses (.ldc1 ft rs imm) s .oddDoubleRegister) ∧
      (ft.getLsbD 0 = false →
        accesses (.ldc1 ft rs imm) s .load 8 a a 8
          (fun t => writesDouble s t ft (wordAt s a ++ wordAt s (a + 4#32)))))

/-- With b the place of the address in its aligned word w, lwl keeps the b low bytes of rt and puts the bytes of w
from place b on above them; lwr keeps the 3 - b high bytes of rt and puts the bytes of w up to place b below them.
Only those bytes are accessed; no alignment is needed; failed checks raise AdEL or DBE. -/
def Obligations.PartialWordLoads : Prop :=
  ∀ (s : State) (rt rs : RegNum) (imm : Half) (a first : Word) (b : Nat),
    a = s.x rs + imm.signExtend 32 → first = a &&& ~~~3#32 → b = (a &&& 3#32).toNat →
    (hasWord (.lwl rt rs imm) (0b100010#6 ++ rs ++ rt ++ imm) ∧
      accesses (.lwl rt rs imm) s .load 1 a a (4 - b) (fun t => ∃ v : Word,
        (∀ k, k < 32 → v.getLsbD k =
          if k < 8 * b then (s.x rt).getLsbD k else (wordAt s first).getLsbD (k - 8 * b)) ∧
        writesX s t rt v)) ∧
    (hasWord (.lwr rt rs imm) (0b100110#6 ++ rs ++ rt ++ imm) ∧
      accesses (.lwr rt rs imm) s .load 1 a first (b + 1) (fun t => ∃ v : Word,
        (∀ k, k < 32 → v.getLsbD k =
          if 8 * (b + 1) ≤ k then (s.x rt).getLsbD k else (wordAt s first).getLsbD (k + 8 * (3 - b))) ∧
        writesX s t rt v))

/-- sb, sh and sw store the low byte, the low halfword and the word of rt, swc1 a floating-point register, sdc1 with
an even register the pair, the lower number first; most significant byte first from base plus displacement on. Exactly
those bytes change, and they are recorded as stored. sdc1 with an odd register is refused. Failed checks raise AdES
with BadVAddr or DBE. -/
def Obligations.Stores : Prop :=
  ∀ (s : State) (rt ft rs : RegNum) (imm : Half) (a : Word), a = s.x rs + imm.signExtend 32 →
    (hasWord (.sb rt rs imm) (0b101000#6 ++ rs ++ rt ++ imm) ∧
      accesses (.sb rt rs imm) s .store 1 a a 1 (fun t => writesBytes s t a [(s.x rt).extractLsb' 0 8])) ∧
    (hasWord (.sh rt rs imm) (0b101001#6 ++ rs ++ rt ++ imm) ∧
      accesses (.sh rt rs imm) s .store 2 a a 2
        (fun t => writesBytes s t a [(s.x rt).extractLsb' 8 8, (s.x rt).extractLsb' 0 8])) ∧
    (hasWord (.sw rt rs imm) (0b101011#6 ++ rs ++ rt ++ imm) ∧
      accesses (.sw rt rs imm) s .store 4 a a 4 (fun t => writesBytes s t a (bytesOf (s.x rt)))) ∧
    (hasWord (.swc1 ft rs imm) (0b111001#6 ++ rs ++ ft ++ imm) ∧
      accesses (.swc1 ft rs imm) s .store 4 a a 4 (fun t => writesBytes s t a (bytesOf (s.f ft)))) ∧
    (hasWord (.sdc1 ft rs imm) (0b111101#6 ++ rs ++ ft ++ imm) ∧
      (ft.getLsbD 0 = true → refuses (.sdc1 ft rs imm) s .oddDoubleRegister) ∧
      (ft.getLsbD 0 = false →
        accesses (.sdc1 ft rs imm) s .store 8 a a 8
          (fun t => writesBytes s t a (bytesOf (s.f ft) ++ bytesOf (s.f (ft + 1#5))))))

/-- With b the place of the address in its aligned word, swl stores the 4 - b most significant bytes of rt from the
address on, swr the b + 1 least significant bytes from the start of the aligned word up to the address. Exactly those
bytes change. No alignment is needed; failed checks raise AdES or DBE. -/
def Obligations.PartialWordStores : Prop :=
  ∀ (s : State) (rt rs : RegNum) (imm : Half) (a first : Word) (b : Nat),
    a = s.x rs + imm.signExtend 32 → first = a &&& ~~~3#32 → b = (a &&& 3#32).toNat →
    (hasWord (.swl rt rs imm) (0b101010#6 ++ rs ++ rt ++ imm) ∧
      accesses (.swl rt rs imm) s .store 1 a a (4 - b)
        (fun t => writesBytes s t a ((List.range (4 - b)).map (fun i => (s.x rt).extractLsb' (24 - 8 * i) 8)))) ∧
    (hasWord (.swr rt rs imm) (0b101110#6 ++ rs ++ rt ++ imm) ∧
      accesses (.swr rt rs imm) s .store 1 a first (b + 1)
        (fun t => writesBytes s t first ((List.range (b + 1)).map (fun i => (s.x rt).extractLsb' (8 * (b - i)) 8))))

/-- When the checks pass: with the link clear sc writes 0 to rt and stores nothing; with the link set at another
address it is refused; with the link set at its address it stores the old rt and writes 1, or, only if spurious
failures are allowed or the run has stored into the linked word, it may write 0 and store nothing; the link is
cleared. Failed checks raise AdES with BadVAddr or DBE and leave the link as it was. The draw after an own store into
the linked word is R82, recorded by the model's own field (log entry 15); the order of the checks is log entry 18. -/
def Obligations.StoreConditional : Prop :=
  ∀ (s : State) (rt rs : RegNum) (imm : Half) (a : Word), a = s.x rs + imm.signExtend 32 →
    hasWord (.sc rt rs imm) (0b111000#6 ++ rs ++ rt ++ imm) ∧
    (accessOk s .store 4 a a 4 →
      (s.llBit = false → completes (.sc rt rs imm) s (fun t => storesNothing s t rt)) ∧
      (s.llBit = true → s.llAddr ≠ a → refuses (.sc rt rs imm) s .scOtherAddress) ∧
      (s.llBit = true → s.llAddr = a → s.plat.scMayFail = false → s.llTouched = false →
        completes (.sc rt rs imm) s (fun t => storesConditionally s t rt a (bytesOf (s.x rt)))) ∧
      (s.llBit = true → s.llAddr = a → s.plat.scMayFail = true ∨ s.llTouched = true →
        completes (.sc rt rs imm) s
          (fun t => storesConditionally s t rt a (bytesOf (s.x rt)) ∨ storesNothing s t rt))) ∧
    (a.toNat % 4 ≠ 0 ∨ aboveLimit s a → completes (.sc rt rs imm) s (fun t => enters s t 5#5 (some a))) ∧
    (a.toNat % 4 = 0 → ¬ aboveLimit s a → ¬ served s .store a 4 → completes (.sc rt rs imm) s
      (fun t => enters s t 7#5 none))

/-- Whenever an instruction other than ll, sc and eret answers a next state, LLbit and LLaddr are unchanged, an
exception it takes included. ll whose checks pass sets LLbit and puts its address into LLaddr; an ll that takes an
exception leaves both. sc clears LLbit unless it takes an exception, which leaves the link as it was; eret in kernel
mode clears it. A write of another agent to a mapped byte clears LLbit exactly when it lies in the linked word; one to
another byte does nothing (log entry 24). LLbit is clear after reset. After a store of the run into the linked word
(log entry 15) the outcome of sc is open: a draw, of which nothing is known, decides between storing and not storing,
whatever SC_MAY_FAIL_SPURIOUSLY. -/
def Obligations.WhatClearsTheLink : Prop :=
  (∀ (i : Instr) (s t : State), exec i s = .next t →
    match i with
    | .ll _ rs imm =>
      (accessOk s .load 4 (s.x rs + imm.signExtend 32) (s.x rs + imm.signExtend 32) 4 →
        t.llBit = true ∧ t.llAddr = s.x rs + imm.signExtend 32) ∧
      (¬ accessOk s .load 4 (s.x rs + imm.signExtend 32) (s.x rs + imm.signExtend 32) 4 →
        t.llBit = s.llBit ∧ t.llAddr = s.llAddr)
    | .sc _ _ _ => t.llAddr = s.llAddr ∧ (t.llBit = false ∨ (t.llBit = s.llBit ∧ t.pc = s.plat.excVector))
    | .eret => t.llAddr = s.llAddr ∧ (¬ inUserMode s → t.llBit = false) ∧ (inUserMode s → t.llBit = s.llBit)
    | _ => t.llBit = s.llBit ∧ t.llAddr = s.llAddr) ∧
  (∀ (s : State) (a : Word) (b : Byte),
    (mappedByte s.plat a = true → (s.externalWrite a b).llAddr = s.llAddr ∧
      ((s.externalWrite a b).llBit = true ↔ s.llBit = true ∧ a &&& ~~~3#32 ≠ s.llAddr &&& ~~~3#32)) ∧
    (mappedByte s.plat a = false → s.externalWrite a b = s)) ∧
  State.reset.llBit = false ∧
  (∀ (s : State) (rt rs : RegNum) (imm : Half) (a : Word), a = s.x rs + imm.signExtend 32 →
    accessOk s .store 4 a a 4 → s.llBit = true → s.llAddr = a → s.llTouched = true →
    ∃ stored notStored, storesConditionally s stored rt a (bytesOf (s.x rt)) ∧ storesNothing s notStored rt ∧
      exec (.sc rt rs imm) s = if Config.scFails s.time then .next notStored else .next stored)

/-- With b and c the places of an address and of the address three bytes on in their aligned words: when the 4 - b
bytes from the address on and the c + 1 bytes up to the other address are served, each in one access, and within the
user limit, lwl at the address and lwr three bytes on, in either order, leave in rt the big-endian word of those four
bytes; swl and swr store the four bytes of rt there and change no other byte. -/
def Obligations.UnalignedWordIdiom : Prop :=
  ∀ (s : State) (rt rs : RegNum) (last : Word) (b c : Nat), last = s.x rs + 3#32 → b = (s.x rs &&& 3#32).toNat →
    c = (last &&& 3#32).toNat → ¬ aboveLimit s (s.x rs) → ¬ aboveLimit s last →
    (rt ≠ 0#5 → rs ≠ rt → served s .load (s.x rs) (4 - b) → served s .load (last &&& ~~~3#32) (c + 1) →
      (∃ t u, exec (.lwl rt rs 0#16) s = .next t ∧ exec (.lwr rt rs 3#16) t = .next u ∧
        u.x rt = wordAt s (s.x rs)) ∧
      (∃ t u, exec (.lwr rt rs 3#16) s = .next t ∧ exec (.lwl rt rs 0#16) t = .next u ∧
        u.x rt = wordAt s (s.x rs))) ∧
    (served s .store (s.x rs) (4 - b) → served s .store (last &&& ~~~3#32) (c + 1) →
      ∃ t u, exec (.swl rt rs 0#16) s = .next t ∧ exec (.swr rt rs 3#16) t = .next u ∧
        bytesBecome s u (s.x rs) (bytesOf (s.x rt)))

/-- mult writes the exact signed, multu the exact unsigned product of the two registers, modulo 2^64, the upper word
to HI and the lower to LO, and changes nothing else but the program counters; read as a 64-bit number of its kind the
pair is the product itself. -/
def Obligations.Multiplication : Prop :=
  ∀ (s : State) (rs rt : RegNum),
    (hasWord (.mult rs rt) (0b000000#6 ++ rs ++ rt ++ 0b00000#5 ++ 0b00000#5 ++ 0b011000#6) ∧
      completes (.mult rs rt) s (fun t => ∃ hi lo : Word,
      (hi ++ lo).toInt = (s.x rs).toInt * (s.x rt).toInt ∧ writesHiLo s t hi lo)) ∧
    (hasWord (.multu rs rt) (0b000000#6 ++ rs ++ rt ++ 0b00000#5 ++ 0b00000#5 ++ 0b011001#6) ∧
      completes (.multu rs rt) s (fun t => ∃ hi lo : Word,
      (hi ++ lo).toNat = (s.x rs).toNat * (s.x rt).toNat ∧ writesHiLo s t hi lo))

/-- With a divisor that is not zero, div writes the quotient rounded toward zero to LO and the remainder, zero or of
the sign of the dividend, to HI, both modulo 2^32; -2^31 / -1 gives LO = 0x80000000 and HI = 0. divu writes the
unsigned quotient and remainder. With divisor zero both write some pair of values, of which nothing is said. Nothing
else changes but the program counters; no exception is raised. -/
def Obligations.Division : Prop :=
  ∀ (s : State) (rs rt : RegNum) (a b : ℤ), a = (s.x rs).toInt → b = (s.x rt).toInt →
    (hasWord (.div rs rt) (0b000000#6 ++ rs ++ rt ++ 0b00000#5 ++ 0b00000#5 ++ 0b011010#6) ∧
      (b ≠ 0 → completes (.div rs rt) s (fun t => ∃ q r : ℤ,
        a = q * b + r ∧ |r| < |b| ∧ (r = 0 ∨ r.sign = a.sign) ∧
        writesHiLo s t (BitVec.ofInt 32 r) (BitVec.ofInt 32 q) ∧
        (a = -2 ^ 31 → b = -1 → t.lo = 0x80000000#32 ∧ t.hi = 0#32) ∧
        (¬ (a = -2 ^ 31 ∧ b = -1) → t.lo.toInt = q ∧ t.hi.toInt = r))) ∧
      (b = 0 → completes (.div rs rt) s (fun t => ∃ hi lo, writesHiLo s t hi lo))) ∧
    (hasWord (.divu rs rt) (0b000000#6 ++ rs ++ rt ++ 0b00000#5 ++ 0b00000#5 ++ 0b011011#6) ∧
      (b ≠ 0 → completes (.divu rs rt) s (fun t => ∃ hi lo : Word,
        hi.toNat = (s.x rs).toNat % (s.x rt).toNat ∧ lo.toNat = (s.x rs).toNat / (s.x rt).toNat ∧
        writesHiLo s t hi lo)) ∧
      (b = 0 → completes (.divu rs rt) s (fun t => ∃ hi lo, writesHiLo s t hi lo)))

/-- mfhi and mflo write HI and LO to rd; mthi and mtlo write rs to HI and LO. Nothing else changes but the program
counters. -/
def Obligations.HiLoMoves : Prop :=
  ∀ (s : State) (rd rs : RegNum),
    (hasWord (.mfhi rd) (0b000000#6 ++ 0b00000#5 ++ 0b00000#5 ++ rd ++ 0b00000#5 ++ 0b010000#6) ∧
      completes (.mfhi rd) s (fun t => writesX s t rd s.hi)) ∧
    (hasWord (.mflo rd) (0b000000#6 ++ 0b00000#5 ++ 0b00000#5 ++ rd ++ 0b00000#5 ++ 0b010010#6) ∧
      completes (.mflo rd) s (fun t => writesX s t rd s.lo)) ∧
    (hasWord (.mthi rs) (0b000000#6 ++ rs ++ 0b00000#5 ++ 0b00000#5 ++ 0b00000#5 ++ 0b010001#6) ∧
      completes (.mthi rs) s (fun t => writesHiLo s t (s.x rs) s.lo)) ∧
    (hasWord (.mtlo rs) (0b000000#6 ++ rs ++ 0b00000#5 ++ 0b00000#5 ++ 0b00000#5 ++ 0b010011#6) ∧
      completes (.mtlo rs) s (fun t => writesHiLo s t s.hi (s.x rs)))

/-- The sign, exponent and fraction fields of a word and of a doubleword are the bits the two formats say. A pattern
with the largest exponent is an infinity when its fraction is zero and a NaN otherwise; with exponent zero a signed
zero when its fraction is zero and a denormal number otherwise; any other a normal number; and the value of a number
is the formula of its row. -/
def Obligations.PatternValues : Prop :=
  (∀ w : Word, fpSign .single w.toNat = w.getLsbD 31 ∧ fpExpField .single w.toNat = (w.extractLsb' 23 8).toNat ∧
    fpFracField .single w.toNat = (w.extractLsb' 0 23).toNat) ∧
  (∀ w : Dword, fpSign .double w.toNat = w.getLsbD 63 ∧ fpExpField .double w.toNat = (w.extractLsb' 52 11).toNat ∧
    fpFracField .double w.toNat = (w.extractLsb' 0 52).toNat) ∧
  (fracBits .single = 23 ∧ maxExp .single = 255 ∧ bias .single = 127 ∧ emin .single = -126 ∧
    fracBits .double = 52 ∧ maxExp .double = 2047 ∧ bias .double = 1023 ∧ emin .double = -1022) ∧
  (∀ (fmt : FpFormat) (w : Nat),
    (fpExpField fmt w = maxExp fmt → fpFracField fmt w ≠ 0 → fpValue fmt w = .nan) ∧
    (fpExpField fmt w = maxExp fmt → fpFracField fmt w = 0 → fpValue fmt w = .inf (fpSign fmt w)) ∧
    (fpExpField fmt w = 0 → fpFracField fmt w = 0 → fpValue fmt w = .zero (fpSign fmt w)) ∧
    (fpExpField fmt w = 0 → fpFracField fmt w ≠ 0 →
      isNumber (fpValue fmt w) ∧ valueSign (fpValue fmt w) = fpSign fmt w ∧
      realValue (fpValue fmt w) = (if fpSign fmt w then -1 else 1) *
        ((fpFracField fmt w : ℝ) / 2 ^ fracBits fmt) * (2 : ℝ) ^ (1 - (bias fmt : ℤ))) ∧
    (1 ≤ fpExpField fmt w → fpExpField fmt w ≤ maxExp fmt - 1 →
      isNumber (fpValue fmt w) ∧ valueSign (fpValue fmt w) = fpSign fmt w ∧
      realValue (fpValue fmt w) = (if fpSign fmt w then -1 else 1) *
        (1 + (fpFracField fmt w : ℝ) / 2 ^ fracBits fmt) * (2 : ℝ) ^ ((fpExpField fmt w : ℤ) - bias fmt)))

/-- For every format and zero sign, the pattern the machine rounds m x 2^e to, and the pattern it rounds a quotient of
two positive integers with a sign to, is that number rounded to nearest, ties to even, with gradual underflow. For
every real number there is exactly one such pattern. A number of magnitude (2 - 2^-p) x 2^emax or more rounds to the
infinity of its sign; a number that is not zero and below half the smallest denormal rounds to the zero of its sign.
-/
def Obligations.RoundingGivesOnePattern : Prop :=
  (∀ (fmt : FpFormat) (m e : ℤ) (zs : Bool),
    rounds fmt ((m : ℝ) * (2 : ℝ) ^ e) zs (roundScaled fmt m e zs)) ∧
  (∀ (fmt : FpFormat) (neg : Bool) (n d : Nat) (zs : Bool), 0 < n → 0 < d →
    rounds fmt ((if neg then -1 else 1) * ((n : ℝ) / d)) zs (roundMagnitude fmt neg n d)) ∧
  ∀ (fmt : FpFormat) (v : ℝ) (zs : Bool), (∃! w, rounds fmt v zs w) ∧ ∀ w, rounds fmt v zs w →
    ((2 - (2 : ℝ) ^ (-(fracBits fmt : ℤ) - 1)) * (2 : ℝ) ^ (bias fmt : ℤ) ≤ |v| →
      w = fpPack fmt (decide (v < 0)) (maxExp fmt) 0) ∧
    (v ≠ 0 → |v| < (2 : ℝ) ^ (emin fmt - fracBits fmt - 1) → w = fpPack fmt (decide (v < 0)) 0 0)

/-- add.s, add.d, sub.s, sub.d (registers of doubles even) write to fd the exact sum, respectively the sum with the
second operand's sign inverted, rounded to nearest even; infinities and signed zeros as the rule lists; a NaN, of
which nothing more is said, when an operand is a NaN or infinities cancel. Nothing else changes but the program
counters. -/
def Obligations.FloatingAddSubtract : Prop :=
  ∀ (s : State) (fd fs ft : RegNum),
    (hasWord (.addS fd fs ft) (0b010001#6 ++ 0b10000#5 ++ ft ++ fs ++ fd ++ 0b000000#6) ∧
      completes (.addS fd fs ft) s (fun t => ∃ v : Word,
      isSum .single (fpValue .single (s.f fs).toNat) (fpValue .single (s.f ft).toNat) v.toNat ∧ writesF s t fd v)) ∧
    (hasWord (.addD fd fs ft) (0b010001#6 ++ 0b10001#5 ++ ft ++ fs ++ fd ++ 0b000000#6) ∧
      (fd.getLsbD 0 = false → fs.getLsbD 0 = false → ft.getLsbD 0 = false →
      completes (.addD fd fs ft) s (fun t => ∃ v : Dword,
        isSum .double (fpValue .double (s.fd64 fs).toNat) (fpValue .double (s.fd64 ft).toNat) v.toNat ∧
          writesDouble s t fd v))) ∧
    (hasWord (.subS fd fs ft) (0b010001#6 ++ 0b10000#5 ++ ft ++ fs ++ fd ++ 0b000001#6) ∧
      completes (.subS fd fs ft) s (fun t => ∃ v : Word,
      isSum .single (fpValue .single (s.f fs).toNat) (negateValue (fpValue .single (s.f ft).toNat)) v.toNat ∧
        writesF s t fd v)) ∧
    (hasWord (.subD fd fs ft) (0b010001#6 ++ 0b10001#5 ++ ft ++ fs ++ fd ++ 0b000001#6) ∧
      (fd.getLsbD 0 = false → fs.getLsbD 0 = false → ft.getLsbD 0 = false →
      completes (.subD fd fs ft) s (fun t => ∃ v : Dword,
        isSum .double (fpValue .double (s.fd64 fs).toNat)
          (negateValue (fpValue .double (s.fd64 ft).toNat)) v.toNat ∧ writesDouble s t fd v)))

/-- mul.s, mul.d, div.s, div.d (registers of doubles even) write to fd the exact product or quotient rounded to
nearest even, with the sign of the operands' signs for zeros and infinities; division of a number that is not zero by
zero gives an infinity; a NaN when an operand is a NaN or the operation has no value. Nothing else changes but the
program counters. -/
def Obligations.FloatingMultiplyDivide : Prop :=
  ∀ (s : State) (fd fs ft : RegNum),
    (hasWord (.mulS fd fs ft) (0b010001#6 ++ 0b10000#5 ++ ft ++ fs ++ fd ++ 0b000010#6) ∧
      completes (.mulS fd fs ft) s (fun t => ∃ v : Word,
      isProduct .single (fpValue .single (s.f fs).toNat) (fpValue .single (s.f ft).toNat) v.toNat ∧
        writesF s t fd v)) ∧
    (hasWord (.mulD fd fs ft) (0b010001#6 ++ 0b10001#5 ++ ft ++ fs ++ fd ++ 0b000010#6) ∧
      (fd.getLsbD 0 = false → fs.getLsbD 0 = false → ft.getLsbD 0 = false →
      completes (.mulD fd fs ft) s (fun t => ∃ v : Dword,
        isProduct .double (fpValue .double (s.fd64 fs).toNat) (fpValue .double (s.fd64 ft).toNat) v.toNat ∧
          writesDouble s t fd v))) ∧
    (hasWord (.divS fd fs ft) (0b010001#6 ++ 0b10000#5 ++ ft ++ fs ++ fd ++ 0b000011#6) ∧
      completes (.divS fd fs ft) s (fun t => ∃ v : Word,
      isQuotient .single (fpValue .single (s.f fs).toNat) (fpValue .single (s.f ft).toNat) v.toNat ∧
        writesF s t fd v)) ∧
    (hasWord (.divD fd fs ft) (0b010001#6 ++ 0b10001#5 ++ ft ++ fs ++ fd ++ 0b000011#6) ∧
      (fd.getLsbD 0 = false → fs.getLsbD 0 = false → ft.getLsbD 0 = false →
      completes (.divD fd fs ft) s (fun t => ∃ v : Dword,
        isQuotient .double (fpValue .double (s.fd64 fs).toNat) (fpValue .double (s.fd64 ft).toNat) v.toNat ∧
          writesDouble s t fd v)))

/-- sqrt writes the exact square root rounded to nearest even, a zero as it is, and a NaN for a NaN and a negative
operand; abs clears the sign bit and neg inverts it, and both write a NaN for a NaN. Registers of doubles are even;
nothing else changes but the program counters. -/
def Obligations.RootAbsoluteNegate : Prop :=
  ∀ (s : State) (fd fs : RegNum),
    (hasWord (.sqrtS fd fs) (0b010001#6 ++ 0b10000#5 ++ 0b00000#5 ++ fs ++ fd ++ 0b000100#6) ∧
      completes (.sqrtS fd fs) s (fun t => ∃ v : Word,
      isRoot .single (fpValue .single (s.f fs).toNat) v.toNat ∧ writesF s t fd v)) ∧
    (hasWord (.sqrtD fd fs) (0b010001#6 ++ 0b10001#5 ++ 0b00000#5 ++ fs ++ fd ++ 0b000100#6) ∧
      (fd.getLsbD 0 = false → fs.getLsbD 0 = false → completes (.sqrtD fd fs) s (fun t => ∃ v : Dword,
      isRoot .double (fpValue .double (s.fd64 fs).toNat) v.toNat ∧ writesDouble s t fd v))) ∧
    (hasWord (.absS fd fs) (0b010001#6 ++ 0b10000#5 ++ 0b00000#5 ++ fs ++ fd ++ 0b000101#6) ∧
      completes (.absS fd fs) s (fun t => ∃ v : Word,
      (isNaNPattern .single (s.f fs).toNat → isNaNPattern .single v.toNat) ∧
      (¬ isNaNPattern .single (s.f fs).toNat → v = 0#1 ++ (s.f fs).extractLsb' 0 31) ∧ writesF s t fd v)) ∧
    (hasWord (.absD fd fs) (0b010001#6 ++ 0b10001#5 ++ 0b00000#5 ++ fs ++ fd ++ 0b000101#6) ∧
      (fd.getLsbD 0 = false → fs.getLsbD 0 = false → completes (.absD fd fs) s (fun t => ∃ v : Dword,
      (isNaNPattern .double (s.fd64 fs).toNat → isNaNPattern .double v.toNat) ∧
      (¬ isNaNPattern .double (s.fd64 fs).toNat → v = 0#1 ++ (s.fd64 fs).extractLsb' 0 63) ∧
        writesDouble s t fd v))) ∧
    (hasWord (.negS fd fs) (0b010001#6 ++ 0b10000#5 ++ 0b00000#5 ++ fs ++ fd ++ 0b000111#6) ∧
      completes (.negS fd fs) s (fun t => ∃ v : Word,
      (isNaNPattern .single (s.f fs).toNat → isNaNPattern .single v.toNat) ∧
      (¬ isNaNPattern .single (s.f fs).toNat → v = ~~~((s.f fs).extractLsb' 31 1) ++ (s.f fs).extractLsb' 0 31) ∧
        writesF s t fd v)) ∧
    (hasWord (.negD fd fs) (0b010001#6 ++ 0b10001#5 ++ 0b00000#5 ++ fs ++ fd ++ 0b000111#6) ∧
      (fd.getLsbD 0 = false → fs.getLsbD 0 = false → completes (.negD fd fs) s (fun t => ∃ v : Dword,
      (isNaNPattern .double (s.fd64 fs).toNat → isNaNPattern .double v.toNat) ∧
      (¬ isNaNPattern .double (s.fd64 fs).toNat →
        v = ~~~((s.fd64 fs).extractLsb' 63 1) ++ (s.fd64 fs).extractLsb' 0 63) ∧ writesDouble s t fd v)))

/-- mov copies any pattern from fs to fd; movz copies when the general register is zero, movn when it is not, and
otherwise nothing is written. Registers of doubles are even; nothing else changes but the program counters. -/
def Obligations.FloatingMoves : Prop :=
  ∀ (s : State) (fd fs rt : RegNum),
    (hasWord (.movS fd fs) (0b010001#6 ++ 0b10000#5 ++ 0b00000#5 ++ fs ++ fd ++ 0b000110#6) ∧
      completes (.movS fd fs) s (fun t => writesF s t fd (s.f fs))) ∧
    (hasWord (.movD fd fs) (0b010001#6 ++ 0b10001#5 ++ 0b00000#5 ++ fs ++ fd ++ 0b000110#6) ∧
      (fd.getLsbD 0 = false → fs.getLsbD 0 = false → completes (.movD fd fs) s
      (fun t => writesDouble s t fd (s.fd64 fs)))) ∧
    (hasWord (.movzS fd fs rt) (0b010001#6 ++ 0b10000#5 ++ rt ++ fs ++ fd ++ 0b010010#6) ∧
      (s.x rt = 0#32 → completes (.movzS fd fs rt) s (fun t => writesF s t fd (s.f fs))) ∧
      (s.x rt ≠ 0#32 → completes (.movzS fd fs rt) s (changesNothing s))) ∧
    (hasWord (.movzD fd fs rt) (0b010001#6 ++ 0b10001#5 ++ rt ++ fs ++ fd ++ 0b010010#6) ∧
      (fd.getLsbD 0 = false → fs.getLsbD 0 = false →
      (s.x rt = 0#32 → completes (.movzD fd fs rt) s (fun t => writesDouble s t fd (s.fd64 fs))) ∧
      (s.x rt ≠ 0#32 → completes (.movzD fd fs rt) s (changesNothing s)))) ∧
    (hasWord (.movnS fd fs rt) (0b010001#6 ++ 0b10000#5 ++ rt ++ fs ++ fd ++ 0b010011#6) ∧
      (s.x rt ≠ 0#32 → completes (.movnS fd fs rt) s (fun t => writesF s t fd (s.f fs))) ∧
      (s.x rt = 0#32 → completes (.movnS fd fs rt) s (changesNothing s))) ∧
    (hasWord (.movnD fd fs rt) (0b010001#6 ++ 0b10001#5 ++ rt ++ fs ++ fd ++ 0b010011#6) ∧
      (fd.getLsbD 0 = false → fs.getLsbD 0 = false →
      (s.x rt ≠ 0#32 → completes (.movnD fd fs rt) s (fun t => writesDouble s t fd (s.fd64 fs))) ∧
      (s.x rt = 0#32 → completes (.movnD fd fs rt) s (changesNothing s))))

/-- cvt.s.d with an even fs writes the double's value rounded to single, infinities and zeros with their sign, a NaN
for a NaN. cvt.d.s with an even fd writes the single's value as a double, which for every number is that same value.
Nothing else changes but the program counters. -/
def Obligations.FormatConversions : Prop :=
  ∀ (s : State) (fd fs : RegNum),
    (hasWord (.cvtSD fd fs) (0b010001#6 ++ 0b10001#5 ++ 0b00000#5 ++ fs ++ fd ++ 0b100000#6) ∧
      (fs.getLsbD 0 = false → completes (.cvtSD fd fs) s (fun t => ∃ v : Word,
      isConversion .single (fpValue .double (s.fd64 fs).toNat) v.toNat ∧ writesF s t fd v))) ∧
    (hasWord (.cvtDS fd fs) (0b010001#6 ++ 0b10000#5 ++ 0b00000#5 ++ fs ++ fd ++ 0b100001#6) ∧
      (fd.getLsbD 0 = false → completes (.cvtDS fd fs) s (fun t => ∃ v : Dword,
      isConversion .double (fpValue .single (s.f fs).toNat) v.toNat ∧
      (isNumber (fpValue .single (s.f fs).toNat) →
        realValue (fpValue .double v.toNat) = realValue (fpValue .single (s.f fs).toNat)) ∧
      writesDouble s t fd v)))

/-- Each writes to fd the operand rounded to an integer, to nearest even, toward zero, up, down and to nearest even,
when that integer fits in 32 signed bits; for a NaN, an infinity and an integer that does not fit it writes some word,
of which nothing is said. fs is even for doubles; nothing else changes but the program counters. -/
def Obligations.ConversionsToWord : Prop :=
  ∀ (s : State) (fd fs : RegNum),
    (hasWord (.roundWS fd fs) (0b010001#6 ++ 0b10000#5 ++ 0b00000#5 ++ fs ++ fd ++ 0b001100#6) ∧
      completes (.roundWS fd fs) s (fun t => ∃ v : Word,
      isWordOf .nearest (fpValue .single (s.f fs).toNat) v ∧ writesF s t fd v)) ∧
    (hasWord (.roundWD fd fs) (0b010001#6 ++ 0b10001#5 ++ 0b00000#5 ++ fs ++ fd ++ 0b001100#6) ∧
      (fs.getLsbD 0 = false → completes (.roundWD fd fs) s (fun t => ∃ v : Word,
      isWordOf .nearest (fpValue .double (s.fd64 fs).toNat) v ∧ writesF s t fd v))) ∧
    (hasWord (.truncWS fd fs) (0b010001#6 ++ 0b10000#5 ++ 0b00000#5 ++ fs ++ fd ++ 0b001101#6) ∧
      completes (.truncWS fd fs) s (fun t => ∃ v : Word,
      isWordOf .zero (fpValue .single (s.f fs).toNat) v ∧ writesF s t fd v)) ∧
    (hasWord (.truncWD fd fs) (0b010001#6 ++ 0b10001#5 ++ 0b00000#5 ++ fs ++ fd ++ 0b001101#6) ∧
      (fs.getLsbD 0 = false → completes (.truncWD fd fs) s (fun t => ∃ v : Word,
      isWordOf .zero (fpValue .double (s.fd64 fs).toNat) v ∧ writesF s t fd v))) ∧
    (hasWord (.ceilWS fd fs) (0b010001#6 ++ 0b10000#5 ++ 0b00000#5 ++ fs ++ fd ++ 0b001110#6) ∧
      completes (.ceilWS fd fs) s (fun t => ∃ v : Word,
      isWordOf .up (fpValue .single (s.f fs).toNat) v ∧ writesF s t fd v)) ∧
    (hasWord (.ceilWD fd fs) (0b010001#6 ++ 0b10001#5 ++ 0b00000#5 ++ fs ++ fd ++ 0b001110#6) ∧
      (fs.getLsbD 0 = false → completes (.ceilWD fd fs) s (fun t => ∃ v : Word,
      isWordOf .up (fpValue .double (s.fd64 fs).toNat) v ∧ writesF s t fd v))) ∧
    (hasWord (.floorWS fd fs) (0b010001#6 ++ 0b10000#5 ++ 0b00000#5 ++ fs ++ fd ++ 0b001111#6) ∧
      completes (.floorWS fd fs) s (fun t => ∃ v : Word,
      isWordOf .down (fpValue .single (s.f fs).toNat) v ∧ writesF s t fd v)) ∧
    (hasWord (.floorWD fd fs) (0b010001#6 ++ 0b10001#5 ++ 0b00000#5 ++ fs ++ fd ++ 0b001111#6) ∧
      (fs.getLsbD 0 = false → completes (.floorWD fd fs) s (fun t => ∃ v : Word,
      isWordOf .down (fpValue .double (s.fd64 fs).toNat) v ∧ writesF s t fd v))) ∧
    (hasWord (.cvtWS fd fs) (0b010001#6 ++ 0b10000#5 ++ 0b00000#5 ++ fs ++ fd ++ 0b100100#6) ∧
      completes (.cvtWS fd fs) s (fun t => ∃ v : Word,
      isWordOf .nearest (fpValue .single (s.f fs).toNat) v ∧ writesF s t fd v)) ∧
    (hasWord (.cvtWD fd fs) (0b010001#6 ++ 0b10001#5 ++ 0b00000#5 ++ fs ++ fd ++ 0b100100#6) ∧
      (fs.getLsbD 0 = false → completes (.cvtWD fd fs) s (fun t => ∃ v : Word,
      isWordOf .nearest (fpValue .double (s.fd64 fs).toNat) v ∧ writesF s t fd v)))

/-- The eight predicates f, un, eq, ueq, olt, ult, ole, ule of c.cond.s set FPcond when the relation of the two values
(less, equal, unordered; -inf below every number below +inf, +0 equal to -0) is one that the table lists for the
predicate, clear it otherwise, and change nothing else but the program counters. -/
def Obligations.SingleCompares : Prop :=
  (∀ (s : State) (fs ft : RegNum) (a b : FpValue), a = (fpValue .single (s.f fs).toNat) →
    b = (fpValue .single (s.f ft).toNat) →
    (hasWord (.cFS fs ft) (0b010001#6 ++ 0b10000#5 ++ ft ++ fs ++ 0b00000#5 ++ 0b110000#6) ∧
      comparesAs (.cFS fs ft) s (False)) ∧
    (hasWord (.cUnS fs ft) (0b010001#6 ++ 0b10000#5 ++ ft ++ fs ++ 0b00000#5 ++ 0b110001#6) ∧
      comparesAs (.cUnS fs ft) s (isUnordered a b)) ∧
    (hasWord (.cEqS fs ft) (0b010001#6 ++ 0b10000#5 ++ ft ++ fs ++ 0b00000#5 ++ 0b110010#6) ∧
      comparesAs (.cEqS fs ft) s (isEqual a b)) ∧
    (hasWord (.cUeqS fs ft) (0b010001#6 ++ 0b10000#5 ++ ft ++ fs ++ 0b00000#5 ++ 0b110011#6) ∧
      comparesAs (.cUeqS fs ft) s (isEqual a b ∨ isUnordered a b)) ∧
    (hasWord (.cOltS fs ft) (0b010001#6 ++ 0b10000#5 ++ ft ++ fs ++ 0b00000#5 ++ 0b110100#6) ∧
      comparesAs (.cOltS fs ft) s (isLess a b)) ∧
    (hasWord (.cUltS fs ft) (0b010001#6 ++ 0b10000#5 ++ ft ++ fs ++ 0b00000#5 ++ 0b110101#6) ∧
      comparesAs (.cUltS fs ft) s (isLess a b ∨ isUnordered a b)) ∧
    (hasWord (.cOleS fs ft) (0b010001#6 ++ 0b10000#5 ++ ft ++ fs ++ 0b00000#5 ++ 0b110110#6) ∧
      comparesAs (.cOleS fs ft) s (isLess a b ∨ isEqual a b)) ∧
    (hasWord (.cUleS fs ft) (0b010001#6 ++ 0b10000#5 ++ ft ++ fs ++ 0b00000#5 ++ 0b110111#6) ∧
      comparesAs (.cUleS fs ft) s (isLess a b ∨ isEqual a b ∨ isUnordered a b)))

/-- The eight signaling predicates sf, ngle, seq, ngl, lt, nge, le, ngt of c.cond.s set FPcond exactly when their
partners f, un, eq, ueq, olt, ult, ole, ule would, and change nothing else but the program counters. -/
def Obligations.SingleSignalingCompares : Prop :=
  (∀ (s : State) (fs ft : RegNum) (a b : FpValue), a = (fpValue .single (s.f fs).toNat) →
    b = (fpValue .single (s.f ft).toNat) →
    (hasWord (.cSfS fs ft) (0b010001#6 ++ 0b10000#5 ++ ft ++ fs ++ 0b00000#5 ++ 0b111000#6) ∧
      comparesAs (.cSfS fs ft) s (False)) ∧
    (hasWord (.cNgleS fs ft) (0b010001#6 ++ 0b10000#5 ++ ft ++ fs ++ 0b00000#5 ++ 0b111001#6) ∧
      comparesAs (.cNgleS fs ft) s (isUnordered a b)) ∧
    (hasWord (.cSeqS fs ft) (0b010001#6 ++ 0b10000#5 ++ ft ++ fs ++ 0b00000#5 ++ 0b111010#6) ∧
      comparesAs (.cSeqS fs ft) s (isEqual a b)) ∧
    (hasWord (.cNglS fs ft) (0b010001#6 ++ 0b10000#5 ++ ft ++ fs ++ 0b00000#5 ++ 0b111011#6) ∧
      comparesAs (.cNglS fs ft) s (isEqual a b ∨ isUnordered a b)) ∧
    (hasWord (.cLtS fs ft) (0b010001#6 ++ 0b10000#5 ++ ft ++ fs ++ 0b00000#5 ++ 0b111100#6) ∧
      comparesAs (.cLtS fs ft) s (isLess a b)) ∧
    (hasWord (.cNgeS fs ft) (0b010001#6 ++ 0b10000#5 ++ ft ++ fs ++ 0b00000#5 ++ 0b111101#6) ∧
      comparesAs (.cNgeS fs ft) s (isLess a b ∨ isUnordered a b)) ∧
    (hasWord (.cLeS fs ft) (0b010001#6 ++ 0b10000#5 ++ ft ++ fs ++ 0b00000#5 ++ 0b111110#6) ∧
      comparesAs (.cLeS fs ft) s (isLess a b ∨ isEqual a b)) ∧
    (hasWord (.cNgtS fs ft) (0b010001#6 ++ 0b10000#5 ++ ft ++ fs ++ 0b00000#5 ++ 0b111111#6) ∧
      comparesAs (.cNgtS fs ft) s (isLess a b ∨ isEqual a b ∨ isUnordered a b)))

/-- The eight predicates f, un, eq, ueq, olt, ult, ole, ule of c.cond.d with even registers set FPcond when the
relation of the two values (less, equal, unordered; -inf below every number below +inf, +0 equal to -0) is one that
the table lists for the predicate, clear it otherwise, and change nothing else but the program counters. -/
def Obligations.DoubleCompares : Prop :=
  (∀ (s : State) (fs ft : RegNum) (a b : FpValue), fs.getLsbD 0 = false → ft.getLsbD 0 = false →
    a = (fpValue .double (s.fd64 fs).toNat) → b = (fpValue .double (s.fd64 ft).toNat) →
    (hasWord (.cFD fs ft) (0b010001#6 ++ 0b10001#5 ++ ft ++ fs ++ 0b00000#5 ++ 0b110000#6) ∧
      comparesAs (.cFD fs ft) s (False)) ∧
    (hasWord (.cUnD fs ft) (0b010001#6 ++ 0b10001#5 ++ ft ++ fs ++ 0b00000#5 ++ 0b110001#6) ∧
      comparesAs (.cUnD fs ft) s (isUnordered a b)) ∧
    (hasWord (.cEqD fs ft) (0b010001#6 ++ 0b10001#5 ++ ft ++ fs ++ 0b00000#5 ++ 0b110010#6) ∧
      comparesAs (.cEqD fs ft) s (isEqual a b)) ∧
    (hasWord (.cUeqD fs ft) (0b010001#6 ++ 0b10001#5 ++ ft ++ fs ++ 0b00000#5 ++ 0b110011#6) ∧
      comparesAs (.cUeqD fs ft) s (isEqual a b ∨ isUnordered a b)) ∧
    (hasWord (.cOltD fs ft) (0b010001#6 ++ 0b10001#5 ++ ft ++ fs ++ 0b00000#5 ++ 0b110100#6) ∧
      comparesAs (.cOltD fs ft) s (isLess a b)) ∧
    (hasWord (.cUltD fs ft) (0b010001#6 ++ 0b10001#5 ++ ft ++ fs ++ 0b00000#5 ++ 0b110101#6) ∧
      comparesAs (.cUltD fs ft) s (isLess a b ∨ isUnordered a b)) ∧
    (hasWord (.cOleD fs ft) (0b010001#6 ++ 0b10001#5 ++ ft ++ fs ++ 0b00000#5 ++ 0b110110#6) ∧
      comparesAs (.cOleD fs ft) s (isLess a b ∨ isEqual a b)) ∧
    (hasWord (.cUleD fs ft) (0b010001#6 ++ 0b10001#5 ++ ft ++ fs ++ 0b00000#5 ++ 0b110111#6) ∧
      comparesAs (.cUleD fs ft) s (isLess a b ∨ isEqual a b ∨ isUnordered a b)))

/-- The eight signaling predicates sf, ngle, seq, ngl, lt, nge, le, ngt of c.cond.d with even registers set FPcond
exactly when their partners f, un, eq, ueq, olt, ult, ole, ule would, and change nothing else but the program
counters. -/
def Obligations.DoubleSignalingCompares : Prop :=
  (∀ (s : State) (fs ft : RegNum) (a b : FpValue), fs.getLsbD 0 = false → ft.getLsbD 0 = false →
    a = (fpValue .double (s.fd64 fs).toNat) → b = (fpValue .double (s.fd64 ft).toNat) →
    (hasWord (.cSfD fs ft) (0b010001#6 ++ 0b10001#5 ++ ft ++ fs ++ 0b00000#5 ++ 0b111000#6) ∧
      comparesAs (.cSfD fs ft) s (False)) ∧
    (hasWord (.cNgleD fs ft) (0b010001#6 ++ 0b10001#5 ++ ft ++ fs ++ 0b00000#5 ++ 0b111001#6) ∧
      comparesAs (.cNgleD fs ft) s (isUnordered a b)) ∧
    (hasWord (.cSeqD fs ft) (0b010001#6 ++ 0b10001#5 ++ ft ++ fs ++ 0b00000#5 ++ 0b111010#6) ∧
      comparesAs (.cSeqD fs ft) s (isEqual a b)) ∧
    (hasWord (.cNglD fs ft) (0b010001#6 ++ 0b10001#5 ++ ft ++ fs ++ 0b00000#5 ++ 0b111011#6) ∧
      comparesAs (.cNglD fs ft) s (isEqual a b ∨ isUnordered a b)) ∧
    (hasWord (.cLtD fs ft) (0b010001#6 ++ 0b10001#5 ++ ft ++ fs ++ 0b00000#5 ++ 0b111100#6) ∧
      comparesAs (.cLtD fs ft) s (isLess a b)) ∧
    (hasWord (.cNgeD fs ft) (0b010001#6 ++ 0b10001#5 ++ ft ++ fs ++ 0b00000#5 ++ 0b111101#6) ∧
      comparesAs (.cNgeD fs ft) s (isLess a b ∨ isUnordered a b)) ∧
    (hasWord (.cLeD fs ft) (0b010001#6 ++ 0b10001#5 ++ ft ++ fs ++ 0b00000#5 ++ 0b111110#6) ∧
      comparesAs (.cLeD fs ft) s (isLess a b ∨ isEqual a b)) ∧
    (hasWord (.cNgtD fs ft) (0b010001#6 ++ 0b10001#5 ++ ft ++ fs ++ 0b00000#5 ++ 0b111111#6) ∧
      comparesAs (.cNgtD fs ft) s (isLess a b ∨ isEqual a b ∨ isUnordered a b)))

/-- Every instruction that names a double by an odd register number is refused, before any address check for ldc1 and
sdc1 and whatever the general register tested by movz.d and movn.d holds: log entry 17. cvt.s.s and cvt.d.d are
refused in every state, with every operand: log entry 19. -/
def Obligations.RefusedOperands : Prop :=
  ∀ (s : State) (fd fs ft rt rs : RegNum) (imm : Half),
    (hasWord (.cvtSS fd fs) (0b010001#6 ++ 0b10000#5 ++ 0b00000#5 ++ fs ++ fd ++ 0b100000#6) ∧
      refuses (.cvtSS fd fs) s .sameFormatConversion) ∧
    (hasWord (.cvtDD fd fs) (0b010001#6 ++ 0b10001#5 ++ 0b00000#5 ++ fs ++ fd ++ 0b100001#6) ∧
      refuses (.cvtDD fd fs) s .sameFormatConversion) ∧
    (fd.getLsbD 0 = true ∨ fs.getLsbD 0 = true ∨ ft.getLsbD 0 = true →
      refuses (.addD fd fs ft) s .oddDoubleRegister ∧
      refuses (.subD fd fs ft) s .oddDoubleRegister ∧
      refuses (.mulD fd fs ft) s .oddDoubleRegister ∧
      refuses (.divD fd fs ft) s .oddDoubleRegister) ∧
    (fd.getLsbD 0 = true ∨ fs.getLsbD 0 = true →
      refuses (.sqrtD fd fs) s .oddDoubleRegister ∧
      refuses (.absD fd fs) s .oddDoubleRegister ∧
      refuses (.movD fd fs) s .oddDoubleRegister ∧
      refuses (.negD fd fs) s .oddDoubleRegister ∧
      refuses (.movzD fd fs rt) s .oddDoubleRegister ∧
      refuses (.movnD fd fs rt) s .oddDoubleRegister) ∧
    (fs.getLsbD 0 = true →
      refuses (.roundWD fd fs) s .oddDoubleRegister ∧
      refuses (.truncWD fd fs) s .oddDoubleRegister ∧
      refuses (.ceilWD fd fs) s .oddDoubleRegister ∧
      refuses (.floorWD fd fs) s .oddDoubleRegister ∧
      refuses (.cvtWD fd fs) s .oddDoubleRegister ∧
      refuses (.cvtSD fd fs) s .oddDoubleRegister) ∧
    (fd.getLsbD 0 = true → refuses (.cvtDS fd fs) s .oddDoubleRegister) ∧
    (fs.getLsbD 0 = true ∨ ft.getLsbD 0 = true →
      refuses (.cFD fs ft) s .oddDoubleRegister ∧
      refuses (.cUnD fs ft) s .oddDoubleRegister ∧
      refuses (.cEqD fs ft) s .oddDoubleRegister ∧
      refuses (.cUeqD fs ft) s .oddDoubleRegister ∧
      refuses (.cOltD fs ft) s .oddDoubleRegister ∧
      refuses (.cUltD fs ft) s .oddDoubleRegister ∧
      refuses (.cOleD fs ft) s .oddDoubleRegister ∧
      refuses (.cUleD fs ft) s .oddDoubleRegister ∧
      refuses (.cSfD fs ft) s .oddDoubleRegister ∧
      refuses (.cNgleD fs ft) s .oddDoubleRegister ∧
      refuses (.cSeqD fs ft) s .oddDoubleRegister ∧
      refuses (.cNglD fs ft) s .oddDoubleRegister ∧
      refuses (.cLtD fs ft) s .oddDoubleRegister ∧
      refuses (.cNgeD fs ft) s .oddDoubleRegister ∧
      refuses (.cLeD fs ft) s .oddDoubleRegister ∧
      refuses (.cNgtD fs ft) s .oddDoubleRegister) ∧
    (ft.getLsbD 0 = true → refuses (.ldc1 ft rs imm) s .oddDoubleRegister ∧
      refuses (.sdc1 ft rs imm) s .oddDoubleRegister)

end
end

