-- ==== Sys2Proof/Laws/Decode.lean ====
section
/-! SUPPORT. The fields of a packed word are what was packed, and a word is the packing of its fields. -/

namespace Sys2Proof

/-- A field that lies in the low part of a concatenation. -/
theorem extract_low {m n : Nat} (x : BitVec m) (y : BitVec n) (start len : Nat) (h : start + len ≤ n) :
    (x ++ y).extractLsb' start len = y.extractLsb' start len := by
  refine BitVec.eq_of_getLsbD_eq fun i hi => ?_
  simp only [BitVec.getLsbD_extractLsb', hi, decide_true, Bool.true_and, BitVec.getLsbD_append]
  rw [if_pos (by omega)]

/-- A field that lies in the high part of a concatenation. -/
theorem extract_high {m n : Nat} (x : BitVec m) (y : BitVec n) (start len : Nat) (h : n ≤ start) :
    (x ++ y).extractLsb' start len = x.extractLsb' (start - n) len := by
  refine BitVec.eq_of_getLsbD_eq fun i hi => ?_
  simp only [BitVec.getLsbD_extractLsb', hi, decide_true, Bool.true_and, BitVec.getLsbD_append]
  rw [if_neg (by omega)]
  congr 1
  omega

/-- The whole of a vector. -/
theorem extract_all {n : Nat} (x : BitVec n) : x.extractLsb' 0 n = x := by simp

/-! ### `packR` -/

@[simp] theorem opcodeField_packR (op : BitVec 6) (a b c d : BitVec 5) (fn : BitVec 6) :
    opcodeField (packR op a b c d fn) = op := by
  unfold opcodeField packR
  rw [extract_high _ _ _ _ (by omega), extract_high _ _ _ _ (by omega), extract_high _ _ _ _ (by omega), extract_high _ _ _ _ (by omega),
    extract_high _ _ _ _ (by omega), extract_all]

@[simp] theorem rsField_packR (op : BitVec 6) (a b c d : BitVec 5) (fn : BitVec 6) :
    rsField (packR op a b c d fn) = a := by
  unfold rsField packR
  rw [extract_high _ _ _ _ (by omega), extract_high _ _ _ _ (by omega), extract_high _ _ _ _ (by omega), extract_high _ _ _ _ (by omega),
    extract_low _ _ _ _ (by omega), extract_all]

@[simp] theorem rtField_packR (op : BitVec 6) (a b c d : BitVec 5) (fn : BitVec 6) :
    rtField (packR op a b c d fn) = b := by
  unfold rtField packR
  rw [extract_high _ _ _ _ (by omega), extract_high _ _ _ _ (by omega), extract_high _ _ _ _ (by omega),
    extract_low _ _ _ _ (by omega), extract_all]

@[simp] theorem rdField_packR (op : BitVec 6) (a b c d : BitVec 5) (fn : BitVec 6) :
    rdField (packR op a b c d fn) = c := by
  unfold rdField packR
  rw [extract_high _ _ _ _ (by omega), extract_high _ _ _ _ (by omega), extract_low _ _ _ _ (by omega), extract_all]

@[simp] theorem shamtField_packR (op : BitVec 6) (a b c d : BitVec 5) (fn : BitVec 6) :
    shamtField (packR op a b c d fn) = d := by
  unfold shamtField packR
  rw [extract_high _ _ _ _ (by omega), extract_low _ _ _ _ (by omega), extract_all]

@[simp] theorem functField_packR (op : BitVec 6) (a b c d : BitVec 5) (fn : BitVec 6) :
    functField (packR op a b c d fn) = fn := by
  unfold functField packR
  rw [extract_low _ _ _ _ (by omega), extract_all]

/-! ### `packI` -/

@[simp] theorem opcodeField_packI (op : BitVec 6) (a b : BitVec 5) (imm : Half) :
    opcodeField (packI op a b imm) = op := by
  unfold opcodeField packI
  rw [extract_high _ _ _ _ (by omega), extract_high _ _ _ _ (by omega), extract_high _ _ _ _ (by omega), extract_all]

@[simp] theorem rsField_packI (op : BitVec 6) (a b : BitVec 5) (imm : Half) :
    rsField (packI op a b imm) = a := by
  unfold rsField packI
  rw [extract_high _ _ _ _ (by omega), extract_high _ _ _ _ (by omega), extract_low _ _ _ _ (by omega), extract_all]

@[simp] theorem rtField_packI (op : BitVec 6) (a b : BitVec 5) (imm : Half) :
    rtField (packI op a b imm) = b := by
  unfold rtField packI
  rw [extract_high _ _ _ _ (by omega), extract_low _ _ _ _ (by omega), extract_all]

@[simp] theorem immField_packI (op : BitVec 6) (a b : BitVec 5) (imm : Half) :
    immField (packI op a b imm) = imm := by
  unfold immField packI
  rw [extract_low _ _ _ _ (by omega), extract_all]

/-! ### `packJ` -/

@[simp] theorem opcodeField_packJ (op : BitVec 6) (address : BitVec 26) :
    opcodeField (packJ op address) = op := by
  unfold opcodeField packJ
  rw [extract_high _ _ _ _ (by omega), extract_all]

@[simp] theorem addressField_packJ (op : BitVec 6) (address : BitVec 26) :
    addressField (packJ op address) = address := by
  unfold addressField packJ
  rw [extract_low _ _ _ _ (by omega), extract_all]

/-! ### `packCode` -/

@[simp] theorem opcodeField_packCode (code : BitVec 20) (fn : BitVec 6) :
    opcodeField (packCode code fn) = 0#6 := by
  unfold opcodeField packCode
  rw [extract_high _ _ _ _ (by omega), extract_high _ _ _ _ (by omega), extract_all]

@[simp] theorem functField_packCode (code : BitVec 20) (fn : BitVec 6) :
    functField (packCode code fn) = fn := by
  unfold functField packCode
  rw [extract_low _ _ _ _ (by omega), extract_all]

@[simp] theorem codeField_packCode (code : BitVec 20) (fn : BitVec 6) :
    codeField (packCode code fn) = code := by
  unfold codeField packCode
  rw [extract_high _ _ _ _ (by omega), extract_low _ _ _ _ (by omega), extract_all]

/-! ### `packTrap` -/

@[simp] theorem opcodeField_packTrap (a b : BitVec 5) (code : BitVec 10) (fn : BitVec 6) :
    opcodeField (packTrap a b code fn) = 0#6 := by
  unfold opcodeField packTrap
  rw [extract_high _ _ _ _ (by omega), extract_high _ _ _ _ (by omega), extract_high _ _ _ _ (by omega),
    extract_high _ _ _ _ (by omega), extract_all]

@[simp] theorem rsField_packTrap (a b : BitVec 5) (code : BitVec 10) (fn : BitVec 6) :
    rsField (packTrap a b code fn) = a := by
  unfold rsField packTrap
  rw [extract_high _ _ _ _ (by omega), extract_high _ _ _ _ (by omega), extract_high _ _ _ _ (by omega),
    extract_low _ _ _ _ (by omega), extract_all]

@[simp] theorem rtField_packTrap (a b : BitVec 5) (code : BitVec 10) (fn : BitVec 6) :
    rtField (packTrap a b code fn) = b := by
  unfold rtField packTrap
  rw [extract_high _ _ _ _ (by omega), extract_high _ _ _ _ (by omega), extract_low _ _ _ _ (by omega), extract_all]

@[simp] theorem functField_packTrap (a b : BitVec 5) (code : BitVec 10) (fn : BitVec 6) :
    functField (packTrap a b code fn) = fn := by
  unfold functField packTrap
  rw [extract_low _ _ _ _ (by omega), extract_all]

@[simp] theorem trapCodeField_packTrap (a b : BitVec 5) (code : BitVec 10) (fn : BitVec 6) :
    trapCodeField (packTrap a b code fn) = code := by
  unfold trapCodeField packTrap
  rw [extract_high _ _ _ _ (by omega), extract_low _ _ _ _ (by omega), extract_all]

/-! ### A word is the packing of its fields -/

theorem packR_fields (w : Word) :
    packR (opcodeField w) (rsField w) (rtField w) (rdField w) (shamtField w) (functField w) = w := by
  unfold packR opcodeField rsField rtField rdField shamtField functField
  refine BitVec.eq_of_getLsbD_eq fun i hi => ?_
  simp only [BitVec.getLsbD_append, BitVec.getLsbD_extractLsb']
  interval_cases i <;> simp

theorem packI_fields (w : Word) : packI (opcodeField w) (rsField w) (rtField w) (immField w) = w := by
  unfold packI opcodeField rsField rtField immField
  refine BitVec.eq_of_getLsbD_eq fun i hi => ?_
  simp only [BitVec.getLsbD_append, BitVec.getLsbD_extractLsb']
  interval_cases i <;> simp

theorem packJ_fields (w : Word) : packJ (opcodeField w) (addressField w) = w := by
  unfold packJ opcodeField addressField
  refine BitVec.eq_of_getLsbD_eq fun i hi => ?_
  simp only [BitVec.getLsbD_append, BitVec.getLsbD_extractLsb']
  interval_cases i <;> simp

theorem packCode_fields (w : Word) (h : opcodeField w = 0#6) : packCode (codeField w) (functField w) = w := by
  have e : opcodeField w ++ codeField w ++ functField w = w := by
    unfold opcodeField codeField functField
    refine BitVec.eq_of_getLsbD_eq fun i hi => ?_
    simp only [BitVec.getLsbD_append, BitVec.getLsbD_extractLsb']
    interval_cases i <;> simp
  rwa [h] at e

theorem packTrap_fields (w : Word) (h : opcodeField w = 0#6) :
    packTrap (rsField w) (rtField w) (trapCodeField w) (functField w) = w := by
  have e : opcodeField w ++ rsField w ++ rtField w ++ trapCodeField w ++ functField w = w := by
    unfold opcodeField rsField rtField trapCodeField functField
    refine BitVec.eq_of_getLsbD_eq fun i hi => ?_
    simp only [BitVec.getLsbD_append, BitVec.getLsbD_extractLsb']
    interval_cases i <;> simp
  rwa [h] at e

/-- Bit 25 and bits 24:6 of a coprocessor-0 word in its fields. -/
theorem bit25_packR (op : BitVec 6) (a b c d : BitVec 5) (fn : BitVec 6) :
    (packR op a b c d fn).getLsbD 25 = a.getLsbD 4 := by
  unfold packR
  simp only [BitVec.getLsbD_append]
  simp

@[simp] theorem getElem25_packR (op : BitVec 6) (a b c d : BitVec 5) (fn : BitVec 6) :
    (packR op a b c d fn)[25] = a[4] := bit25_packR op a b c d fn

theorem coField_packR (op : BitVec 6) (a b c d : BitVec 5) (fn : BitVec 6) :
    coField (packR op a b c d fn) = a.extractLsb' 0 4 ++ b ++ c ++ d := by
  unfold coField packR
  refine BitVec.eq_of_getLsbD_eq fun i hi => ?_
  simp only [BitVec.getLsbD_append, BitVec.getLsbD_extractLsb']
  interval_cases i <;> simp

/-! ### Bytes of a word -/

/-- The four bytes of a word, put together again (R64). -/
theorem wordOfBytes_bytes (w : Word) :
    wordOfBytes (byteOfWord w 0) (byteOfWord w 1) (byteOfWord w 2) (byteOfWord w 3) = w := by
  unfold wordOfBytes byteOfWord
  refine BitVec.eq_of_getLsbD_eq fun i hi => ?_
  simp only [BitVec.getLsbD_append, BitVec.getLsbD_extractLsb']
  interval_cases i <;> simp

/-- The decoder reads a table word as it is. -/
theorem decodeTableWord_eq (nbits w : Nat) :
    decodeTableWord nbits w = match decode (tableWord nbits w) with
      | .instr i => some i
      | .unassigned => none
      | .mustBeZero => none := by
  unfold decodeTableWord
  simp only [wordOfBytes_bytes] <;> rfl

theorem ifZero_instr {zero : Bool} {i j : Instr} : ifZero zero i = .instr j ↔ zero = true ∧ i = j := by
  cases zero <;> simp [ifZero]

end Sys2Proof
end

