-- ==== Sys2Proof/Laws/State.lean ====
section
/-! SUPPORT. What each update of the state does to each field, and that the accessors read through it. -/

namespace Sys2Proof.Machine

@[simp] theorem setX_gpr (s : State) (n : RegNum) (v : Word) :
    (s.setX n v).gpr = if n = 0#5 then s.gpr else regWrite s.gpr n v := rfl
@[simp] theorem setX_pc (s : State) (n : RegNum) (v : Word) : (s.setX n v).pc = s.pc := rfl
@[simp] theorem setX_npc (s : State) (n : RegNum) (v : Word) : (s.setX n v).npc = s.npc := rfl
@[simp] theorem setX_inDs (s : State) (n : RegNum) (v : Word) : (s.setX n v).inDs = s.inDs := rfl
@[simp] theorem setX_hi (s : State) (n : RegNum) (v : Word) : (s.setX n v).hi = s.hi := rfl
@[simp] theorem setX_lo (s : State) (n : RegNum) (v : Word) : (s.setX n v).lo = s.lo := rfl
@[simp] theorem setX_fpr (s : State) (n : RegNum) (v : Word) : (s.setX n v).fpr = s.fpr := rfl
@[simp] theorem setX_fpcond (s : State) (n : RegNum) (v : Word) : (s.setX n v).fpcond = s.fpcond := rfl
@[simp] theorem setX_status (s : State) (n : RegNum) (v : Word) : (s.setX n v).status = s.status := rfl
@[simp] theorem setX_cause (s : State) (n : RegNum) (v : Word) : (s.setX n v).cause = s.cause := rfl
@[simp] theorem setX_epc (s : State) (n : RegNum) (v : Word) : (s.setX n v).epc = s.epc := rfl
@[simp] theorem setX_badVAddr (s : State) (n : RegNum) (v : Word) : (s.setX n v).badVAddr = s.badVAddr := rfl
@[simp] theorem setX_llBit (s : State) (n : RegNum) (v : Word) : (s.setX n v).llBit = s.llBit := rfl
@[simp] theorem setX_llAddr (s : State) (n : RegNum) (v : Word) : (s.setX n v).llAddr = s.llAddr := rfl
@[simp] theorem setX_llTouched (s : State) (n : RegNum) (v : Word) : (s.setX n v).llTouched = s.llTouched := rfl
@[simp] theorem setX_mem (s : State) (n : RegNum) (v : Word) : (s.setX n v).mem = s.mem := rfl
@[simp] theorem setX_stored (s : State) (n : RegNum) (v : Word) : (s.setX n v).stored = s.stored := rfl
@[simp] theorem setX_time (s : State) (n : RegNum) (v : Word) : (s.setX n v).time = s.time := rfl
@[simp] theorem setX_inputs (s : State) (n : RegNum) (v : Word) : (s.setX n v).inputs = s.inputs := rfl
@[simp] theorem setX_plat (s : State) (n : RegNum) (v : Word) : (s.setX n v).plat = s.plat := rfl
@[simp] theorem f_setX (s : State) (n : RegNum) (v : Word) (m : RegNum) : (s.setX n v).f m = s.f m := rfl
@[simp] theorem fd64_setX (s : State) (n : RegNum) (v : Word) (m : RegNum) : (s.setX n v).fd64 m = s.fd64 m := rfl
@[simp] theorem byte_setX (s : State) (n : RegNum) (v : Word) (m : Word) : (s.setX n v).byte m = s.byte m := rfl
@[simp] theorem el_setX (s : State) (n : RegNum) (v : Word) : (s.setX n v).el = s.el := rfl
@[simp] theorem userMode_setX (s : State) (n : RegNum) (v : Word) : (s.setX n v).userMode = s.userMode := rfl

@[simp] theorem setF_gpr (s : State) (n : RegNum) (v : Word) : (s.setF n v).gpr = s.gpr := rfl
@[simp] theorem setF_pc (s : State) (n : RegNum) (v : Word) : (s.setF n v).pc = s.pc := rfl
@[simp] theorem setF_npc (s : State) (n : RegNum) (v : Word) : (s.setF n v).npc = s.npc := rfl
@[simp] theorem setF_inDs (s : State) (n : RegNum) (v : Word) : (s.setF n v).inDs = s.inDs := rfl
@[simp] theorem setF_hi (s : State) (n : RegNum) (v : Word) : (s.setF n v).hi = s.hi := rfl
@[simp] theorem setF_lo (s : State) (n : RegNum) (v : Word) : (s.setF n v).lo = s.lo := rfl
@[simp] theorem setF_fpr (s : State) (n : RegNum) (v : Word) : (s.setF n v).fpr = regWrite s.fpr n v := rfl
@[simp] theorem setF_fpcond (s : State) (n : RegNum) (v : Word) : (s.setF n v).fpcond = s.fpcond := rfl
@[simp] theorem setF_status (s : State) (n : RegNum) (v : Word) : (s.setF n v).status = s.status := rfl
@[simp] theorem setF_cause (s : State) (n : RegNum) (v : Word) : (s.setF n v).cause = s.cause := rfl
@[simp] theorem setF_epc (s : State) (n : RegNum) (v : Word) : (s.setF n v).epc = s.epc := rfl
@[simp] theorem setF_badVAddr (s : State) (n : RegNum) (v : Word) : (s.setF n v).badVAddr = s.badVAddr := rfl
@[simp] theorem setF_llBit (s : State) (n : RegNum) (v : Word) : (s.setF n v).llBit = s.llBit := rfl
@[simp] theorem setF_llAddr (s : State) (n : RegNum) (v : Word) : (s.setF n v).llAddr = s.llAddr := rfl
@[simp] theorem setF_llTouched (s : State) (n : RegNum) (v : Word) : (s.setF n v).llTouched = s.llTouched := rfl
@[simp] theorem setF_mem (s : State) (n : RegNum) (v : Word) : (s.setF n v).mem = s.mem := rfl
@[simp] theorem setF_stored (s : State) (n : RegNum) (v : Word) : (s.setF n v).stored = s.stored := rfl
@[simp] theorem setF_time (s : State) (n : RegNum) (v : Word) : (s.setF n v).time = s.time := rfl
@[simp] theorem setF_inputs (s : State) (n : RegNum) (v : Word) : (s.setF n v).inputs = s.inputs := rfl
@[simp] theorem setF_plat (s : State) (n : RegNum) (v : Word) : (s.setF n v).plat = s.plat := rfl
@[simp] theorem x_setF (s : State) (n : RegNum) (v : Word) (m : RegNum) : (s.setF n v).x m = s.x m := rfl
@[simp] theorem byte_setF (s : State) (n : RegNum) (v : Word) (m : Word) : (s.setF n v).byte m = s.byte m := rfl
@[simp] theorem el_setF (s : State) (n : RegNum) (v : Word) : (s.setF n v).el = s.el := rfl
@[simp] theorem userMode_setF (s : State) (n : RegNum) (v : Word) : (s.setF n v).userMode = s.userMode := rfl

@[simp] theorem setFd64_gpr (s : State) (n : RegNum) (v : Dword) : (s.setFd64 n v).gpr = s.gpr := rfl
@[simp] theorem setFd64_pc (s : State) (n : RegNum) (v : Dword) : (s.setFd64 n v).pc = s.pc := rfl
@[simp] theorem setFd64_npc (s : State) (n : RegNum) (v : Dword) : (s.setFd64 n v).npc = s.npc := rfl
@[simp] theorem setFd64_inDs (s : State) (n : RegNum) (v : Dword) : (s.setFd64 n v).inDs = s.inDs := rfl
@[simp] theorem setFd64_hi (s : State) (n : RegNum) (v : Dword) : (s.setFd64 n v).hi = s.hi := rfl
@[simp] theorem setFd64_lo (s : State) (n : RegNum) (v : Dword) : (s.setFd64 n v).lo = s.lo := rfl
@[simp] theorem setFd64_fpr (s : State) (n : RegNum) (v : Dword) :
    (s.setFd64 n v).fpr = regWrite (regWrite s.fpr n (v.extractLsb' 32 32)) (n + 1#5) (v.extractLsb' 0 32) := rfl
@[simp] theorem setFd64_fpcond (s : State) (n : RegNum) (v : Dword) : (s.setFd64 n v).fpcond = s.fpcond := rfl
@[simp] theorem setFd64_status (s : State) (n : RegNum) (v : Dword) : (s.setFd64 n v).status = s.status := rfl
@[simp] theorem setFd64_cause (s : State) (n : RegNum) (v : Dword) : (s.setFd64 n v).cause = s.cause := rfl
@[simp] theorem setFd64_epc (s : State) (n : RegNum) (v : Dword) : (s.setFd64 n v).epc = s.epc := rfl
@[simp] theorem setFd64_badVAddr (s : State) (n : RegNum) (v : Dword) : (s.setFd64 n v).badVAddr = s.badVAddr := rfl
@[simp] theorem setFd64_llBit (s : State) (n : RegNum) (v : Dword) : (s.setFd64 n v).llBit = s.llBit := rfl
@[simp] theorem setFd64_llAddr (s : State) (n : RegNum) (v : Dword) : (s.setFd64 n v).llAddr = s.llAddr := rfl
@[simp] theorem setFd64_llTouched (s : State) (n : RegNum) (v : Dword) :
    (s.setFd64 n v).llTouched = s.llTouched := rfl
@[simp] theorem setFd64_mem (s : State) (n : RegNum) (v : Dword) : (s.setFd64 n v).mem = s.mem := rfl
@[simp] theorem setFd64_stored (s : State) (n : RegNum) (v : Dword) : (s.setFd64 n v).stored = s.stored := rfl
@[simp] theorem setFd64_time (s : State) (n : RegNum) (v : Dword) : (s.setFd64 n v).time = s.time := rfl
@[simp] theorem setFd64_inputs (s : State) (n : RegNum) (v : Dword) : (s.setFd64 n v).inputs = s.inputs := rfl
@[simp] theorem setFd64_plat (s : State) (n : RegNum) (v : Dword) : (s.setFd64 n v).plat = s.plat := rfl
@[simp] theorem x_setFd64 (s : State) (n : RegNum) (v : Dword) (m : RegNum) : (s.setFd64 n v).x m = s.x m := rfl
@[simp] theorem byte_setFd64 (s : State) (n : RegNum) (v : Dword) (m : Word) :
    (s.setFd64 n v).byte m = s.byte m := rfl
@[simp] theorem el_setFd64 (s : State) (n : RegNum) (v : Dword) : (s.setFd64 n v).el = s.el := rfl
@[simp] theorem userMode_setFd64 (s : State) (n : RegNum) (v : Dword) : (s.setFd64 n v).userMode = s.userMode := rfl

@[simp] theorem setHi_gpr (s : State) (v : Word) : (s.setHi v).gpr = s.gpr := rfl
@[simp] theorem setHi_pc (s : State) (v : Word) : (s.setHi v).pc = s.pc := rfl
@[simp] theorem setHi_npc (s : State) (v : Word) : (s.setHi v).npc = s.npc := rfl
@[simp] theorem setHi_inDs (s : State) (v : Word) : (s.setHi v).inDs = s.inDs := rfl
@[simp] theorem setHi_hi (s : State) (v : Word) : (s.setHi v).hi = v := rfl
@[simp] theorem setHi_lo (s : State) (v : Word) : (s.setHi v).lo = s.lo := rfl
@[simp] theorem setHi_fpr (s : State) (v : Word) : (s.setHi v).fpr = s.fpr := rfl
@[simp] theorem setHi_fpcond (s : State) (v : Word) : (s.setHi v).fpcond = s.fpcond := rfl
@[simp] theorem setHi_status (s : State) (v : Word) : (s.setHi v).status = s.status := rfl
@[simp] theorem setHi_cause (s : State) (v : Word) : (s.setHi v).cause = s.cause := rfl
@[simp] theorem setHi_epc (s : State) (v : Word) : (s.setHi v).epc = s.epc := rfl
@[simp] theorem setHi_badVAddr (s : State) (v : Word) : (s.setHi v).badVAddr = s.badVAddr := rfl
@[simp] theorem setHi_llBit (s : State) (v : Word) : (s.setHi v).llBit = s.llBit := rfl
@[simp] theorem setHi_llAddr (s : State) (v : Word) : (s.setHi v).llAddr = s.llAddr := rfl
@[simp] theorem setHi_llTouched (s : State) (v : Word) : (s.setHi v).llTouched = s.llTouched := rfl
@[simp] theorem setHi_mem (s : State) (v : Word) : (s.setHi v).mem = s.mem := rfl
@[simp] theorem setHi_stored (s : State) (v : Word) : (s.setHi v).stored = s.stored := rfl
@[simp] theorem setHi_time (s : State) (v : Word) : (s.setHi v).time = s.time := rfl
@[simp] theorem setHi_inputs (s : State) (v : Word) : (s.setHi v).inputs = s.inputs := rfl
@[simp] theorem setHi_plat (s : State) (v : Word) : (s.setHi v).plat = s.plat := rfl
@[simp] theorem x_setHi (s : State) (v : Word) (m : RegNum) : (s.setHi v).x m = s.x m := rfl
@[simp] theorem f_setHi (s : State) (v : Word) (m : RegNum) : (s.setHi v).f m = s.f m := rfl
@[simp] theorem fd64_setHi (s : State) (v : Word) (m : RegNum) : (s.setHi v).fd64 m = s.fd64 m := rfl
@[simp] theorem byte_setHi (s : State) (v : Word) (m : Word) : (s.setHi v).byte m = s.byte m := rfl
@[simp] theorem el_setHi (s : State) (v : Word) : (s.setHi v).el = s.el := rfl
@[simp] theorem userMode_setHi (s : State) (v : Word) : (s.setHi v).userMode = s.userMode := rfl

@[simp] theorem setLo_gpr (s : State) (v : Word) : (s.setLo v).gpr = s.gpr := rfl
@[simp] theorem setLo_pc (s : State) (v : Word) : (s.setLo v).pc = s.pc := rfl
@[simp] theorem setLo_npc (s : State) (v : Word) : (s.setLo v).npc = s.npc := rfl
@[simp] theorem setLo_inDs (s : State) (v : Word) : (s.setLo v).inDs = s.inDs := rfl
@[simp] theorem setLo_hi (s : State) (v : Word) : (s.setLo v).hi = s.hi := rfl
@[simp] theorem setLo_lo (s : State) (v : Word) : (s.setLo v).lo = v := rfl
@[simp] theorem setLo_fpr (s : State) (v : Word) : (s.setLo v).fpr = s.fpr := rfl
@[simp] theorem setLo_fpcond (s : State) (v : Word) : (s.setLo v).fpcond = s.fpcond := rfl
@[simp] theorem setLo_status (s : State) (v : Word) : (s.setLo v).status = s.status := rfl
@[simp] theorem setLo_cause (s : State) (v : Word) : (s.setLo v).cause = s.cause := rfl
@[simp] theorem setLo_epc (s : State) (v : Word) : (s.setLo v).epc = s.epc := rfl
@[simp] theorem setLo_badVAddr (s : State) (v : Word) : (s.setLo v).badVAddr = s.badVAddr := rfl
@[simp] theorem setLo_llBit (s : State) (v : Word) : (s.setLo v).llBit = s.llBit := rfl
@[simp] theorem setLo_llAddr (s : State) (v : Word) : (s.setLo v).llAddr = s.llAddr := rfl
@[simp] theorem setLo_llTouched (s : State) (v : Word) : (s.setLo v).llTouched = s.llTouched := rfl
@[simp] theorem setLo_mem (s : State) (v : Word) : (s.setLo v).mem = s.mem := rfl
@[simp] theorem setLo_stored (s : State) (v : Word) : (s.setLo v).stored = s.stored := rfl
@[simp] theorem setLo_time (s : State) (v : Word) : (s.setLo v).time = s.time := rfl
@[simp] theorem setLo_inputs (s : State) (v : Word) : (s.setLo v).inputs = s.inputs := rfl
@[simp] theorem setLo_plat (s : State) (v : Word) : (s.setLo v).plat = s.plat := rfl
@[simp] theorem x_setLo (s : State) (v : Word) (m : RegNum) : (s.setLo v).x m = s.x m := rfl
@[simp] theorem f_setLo (s : State) (v : Word) (m : RegNum) : (s.setLo v).f m = s.f m := rfl
@[simp] theorem fd64_setLo (s : State) (v : Word) (m : RegNum) : (s.setLo v).fd64 m = s.fd64 m := rfl
@[simp] theorem byte_setLo (s : State) (v : Word) (m : Word) : (s.setLo v).byte m = s.byte m := rfl
@[simp] theorem el_setLo (s : State) (v : Word) : (s.setLo v).el = s.el := rfl
@[simp] theorem userMode_setLo (s : State) (v : Word) : (s.setLo v).userMode = s.userMode := rfl

@[simp] theorem setFpcond_gpr (s : State) (b : Bool) : (s.setFpcond b).gpr = s.gpr := rfl
@[simp] theorem setFpcond_pc (s : State) (b : Bool) : (s.setFpcond b).pc = s.pc := rfl
@[simp] theorem setFpcond_npc (s : State) (b : Bool) : (s.setFpcond b).npc = s.npc := rfl
@[simp] theorem setFpcond_inDs (s : State) (b : Bool) : (s.setFpcond b).inDs = s.inDs := rfl
@[simp] theorem setFpcond_hi (s : State) (b : Bool) : (s.setFpcond b).hi = s.hi := rfl
@[simp] theorem setFpcond_lo (s : State) (b : Bool) : (s.setFpcond b).lo = s.lo := rfl
@[simp] theorem setFpcond_fpr (s : State) (b : Bool) : (s.setFpcond b).fpr = s.fpr := rfl
@[simp] theorem setFpcond_fpcond (s : State) (b : Bool) : (s.setFpcond b).fpcond = b := rfl
@[simp] theorem setFpcond_status (s : State) (b : Bool) : (s.setFpcond b).status = s.status := rfl
@[simp] theorem setFpcond_cause (s : State) (b : Bool) : (s.setFpcond b).cause = s.cause := rfl
@[simp] theorem setFpcond_epc (s : State) (b : Bool) : (s.setFpcond b).epc = s.epc := rfl
@[simp] theorem setFpcond_badVAddr (s : State) (b : Bool) : (s.setFpcond b).badVAddr = s.badVAddr := rfl
@[simp] theorem setFpcond_llBit (s : State) (b : Bool) : (s.setFpcond b).llBit = s.llBit := rfl
@[simp] theorem setFpcond_llAddr (s : State) (b : Bool) : (s.setFpcond b).llAddr = s.llAddr := rfl
@[simp] theorem setFpcond_llTouched (s : State) (b : Bool) : (s.setFpcond b).llTouched = s.llTouched := rfl
@[simp] theorem setFpcond_mem (s : State) (b : Bool) : (s.setFpcond b).mem = s.mem := rfl
@[simp] theorem setFpcond_stored (s : State) (b : Bool) : (s.setFpcond b).stored = s.stored := rfl
@[simp] theorem setFpcond_time (s : State) (b : Bool) : (s.setFpcond b).time = s.time := rfl
@[simp] theorem setFpcond_inputs (s : State) (b : Bool) : (s.setFpcond b).inputs = s.inputs := rfl
@[simp] theorem setFpcond_plat (s : State) (b : Bool) : (s.setFpcond b).plat = s.plat := rfl
@[simp] theorem x_setFpcond (s : State) (b : Bool) (m : RegNum) : (s.setFpcond b).x m = s.x m := rfl
@[simp] theorem f_setFpcond (s : State) (b : Bool) (m : RegNum) : (s.setFpcond b).f m = s.f m := rfl
@[simp] theorem fd64_setFpcond (s : State) (b : Bool) (m : RegNum) : (s.setFpcond b).fd64 m = s.fd64 m := rfl
@[simp] theorem byte_setFpcond (s : State) (b : Bool) (m : Word) : (s.setFpcond b).byte m = s.byte m := rfl
@[simp] theorem el_setFpcond (s : State) (b : Bool) : (s.setFpcond b).el = s.el := rfl
@[simp] theorem userMode_setFpcond (s : State) (b : Bool) : (s.setFpcond b).userMode = s.userMode := rfl

@[simp] theorem setLink_gpr (s : State) (a : Word) : (s.setLink a).gpr = s.gpr := rfl
@[simp] theorem setLink_pc (s : State) (a : Word) : (s.setLink a).pc = s.pc := rfl
@[simp] theorem setLink_npc (s : State) (a : Word) : (s.setLink a).npc = s.npc := rfl
@[simp] theorem setLink_inDs (s : State) (a : Word) : (s.setLink a).inDs = s.inDs := rfl
@[simp] theorem setLink_hi (s : State) (a : Word) : (s.setLink a).hi = s.hi := rfl
@[simp] theorem setLink_lo (s : State) (a : Word) : (s.setLink a).lo = s.lo := rfl
@[simp] theorem setLink_fpr (s : State) (a : Word) : (s.setLink a).fpr = s.fpr := rfl
@[simp] theorem setLink_fpcond (s : State) (a : Word) : (s.setLink a).fpcond = s.fpcond := rfl
@[simp] theorem setLink_status (s : State) (a : Word) : (s.setLink a).status = s.status := rfl
@[simp] theorem setLink_cause (s : State) (a : Word) : (s.setLink a).cause = s.cause := rfl
@[simp] theorem setLink_epc (s : State) (a : Word) : (s.setLink a).epc = s.epc := rfl
@[simp] theorem setLink_badVAddr (s : State) (a : Word) : (s.setLink a).badVAddr = s.badVAddr := rfl
@[simp] theorem setLink_llBit (s : State) (a : Word) : (s.setLink a).llBit = true := rfl
@[simp] theorem setLink_llAddr (s : State) (a : Word) : (s.setLink a).llAddr = a := rfl
@[simp] theorem setLink_llTouched (s : State) (a : Word) : (s.setLink a).llTouched = false := rfl
@[simp] theorem setLink_mem (s : State) (a : Word) : (s.setLink a).mem = s.mem := rfl
@[simp] theorem setLink_stored (s : State) (a : Word) : (s.setLink a).stored = s.stored := rfl
@[simp] theorem setLink_time (s : State) (a : Word) : (s.setLink a).time = s.time := rfl
@[simp] theorem setLink_inputs (s : State) (a : Word) : (s.setLink a).inputs = s.inputs := rfl
@[simp] theorem setLink_plat (s : State) (a : Word) : (s.setLink a).plat = s.plat := rfl
@[simp] theorem x_setLink (s : State) (a : Word) (m : RegNum) : (s.setLink a).x m = s.x m := rfl
@[simp] theorem f_setLink (s : State) (a : Word) (m : RegNum) : (s.setLink a).f m = s.f m := rfl
@[simp] theorem fd64_setLink (s : State) (a : Word) (m : RegNum) : (s.setLink a).fd64 m = s.fd64 m := rfl
@[simp] theorem byte_setLink (s : State) (a : Word) (m : Word) : (s.setLink a).byte m = s.byte m := rfl
@[simp] theorem el_setLink (s : State) (a : Word) : (s.setLink a).el = s.el := rfl
@[simp] theorem userMode_setLink (s : State) (a : Word) : (s.setLink a).userMode = s.userMode := rfl

@[simp] theorem clearLink_gpr (s : State) : (s.clearLink).gpr = s.gpr := rfl
@[simp] theorem clearLink_pc (s : State) : (s.clearLink).pc = s.pc := rfl
@[simp] theorem clearLink_npc (s : State) : (s.clearLink).npc = s.npc := rfl
@[simp] theorem clearLink_inDs (s : State) : (s.clearLink).inDs = s.inDs := rfl
@[simp] theorem clearLink_hi (s : State) : (s.clearLink).hi = s.hi := rfl
@[simp] theorem clearLink_lo (s : State) : (s.clearLink).lo = s.lo := rfl
@[simp] theorem clearLink_fpr (s : State) : (s.clearLink).fpr = s.fpr := rfl
@[simp] theorem clearLink_fpcond (s : State) : (s.clearLink).fpcond = s.fpcond := rfl
@[simp] theorem clearLink_status (s : State) : (s.clearLink).status = s.status := rfl
@[simp] theorem clearLink_cause (s : State) : (s.clearLink).cause = s.cause := rfl
@[simp] theorem clearLink_epc (s : State) : (s.clearLink).epc = s.epc := rfl
@[simp] theorem clearLink_badVAddr (s : State) : (s.clearLink).badVAddr = s.badVAddr := rfl
@[simp] theorem clearLink_llBit (s : State) : (s.clearLink).llBit = false := rfl
@[simp] theorem clearLink_llAddr (s : State) : (s.clearLink).llAddr = s.llAddr := rfl
@[simp] theorem clearLink_llTouched (s : State) : (s.clearLink).llTouched = false := rfl
@[simp] theorem clearLink_mem (s : State) : (s.clearLink).mem = s.mem := rfl
@[simp] theorem clearLink_stored (s : State) : (s.clearLink).stored = s.stored := rfl
@[simp] theorem clearLink_time (s : State) : (s.clearLink).time = s.time := rfl
@[simp] theorem clearLink_inputs (s : State) : (s.clearLink).inputs = s.inputs := rfl
@[simp] theorem clearLink_plat (s : State) : (s.clearLink).plat = s.plat := rfl
@[simp] theorem x_clearLink (s : State) (m : RegNum) : (s.clearLink).x m = s.x m := rfl
@[simp] theorem f_clearLink (s : State) (m : RegNum) : (s.clearLink).f m = s.f m := rfl
@[simp] theorem fd64_clearLink (s : State) (m : RegNum) : (s.clearLink).fd64 m = s.fd64 m := rfl
@[simp] theorem byte_clearLink (s : State) (m : Word) : (s.clearLink).byte m = s.byte m := rfl
@[simp] theorem el_clearLink (s : State) : (s.clearLink).el = s.el := rfl
@[simp] theorem userMode_clearLink (s : State) : (s.clearLink).userMode = s.userMode := rfl

@[simp] theorem storeByte_gpr (s : State) (a : Word) (b : Byte) : (s.storeByte a b).gpr = s.gpr := rfl
@[simp] theorem storeByte_pc (s : State) (a : Word) (b : Byte) : (s.storeByte a b).pc = s.pc := rfl
@[simp] theorem storeByte_npc (s : State) (a : Word) (b : Byte) : (s.storeByte a b).npc = s.npc := rfl
@[simp] theorem storeByte_inDs (s : State) (a : Word) (b : Byte) : (s.storeByte a b).inDs = s.inDs := rfl
@[simp] theorem storeByte_hi (s : State) (a : Word) (b : Byte) : (s.storeByte a b).hi = s.hi := rfl
@[simp] theorem storeByte_lo (s : State) (a : Word) (b : Byte) : (s.storeByte a b).lo = s.lo := rfl
@[simp] theorem storeByte_fpr (s : State) (a : Word) (b : Byte) : (s.storeByte a b).fpr = s.fpr := rfl
@[simp] theorem storeByte_fpcond (s : State) (a : Word) (b : Byte) : (s.storeByte a b).fpcond = s.fpcond := rfl
@[simp] theorem storeByte_status (s : State) (a : Word) (b : Byte) : (s.storeByte a b).status = s.status := rfl
@[simp] theorem storeByte_cause (s : State) (a : Word) (b : Byte) : (s.storeByte a b).cause = s.cause := rfl
@[simp] theorem storeByte_epc (s : State) (a : Word) (b : Byte) : (s.storeByte a b).epc = s.epc := rfl
@[simp] theorem storeByte_badVAddr (s : State) (a : Word) (b : Byte) : (s.storeByte a b).badVAddr = s.badVAddr := rfl
@[simp] theorem storeByte_llBit (s : State) (a : Word) (b : Byte) : (s.storeByte a b).llBit = s.llBit := rfl
@[simp] theorem storeByte_llAddr (s : State) (a : Word) (b : Byte) : (s.storeByte a b).llAddr = s.llAddr := rfl
@[simp] theorem storeByte_llTouched (s : State) (a : Word) (b : Byte) :
    (s.storeByte a b).llTouched = (s.llTouched || (s.llBit && sameWord a s.llAddr)) := rfl
@[simp] theorem storeByte_mem (s : State) (a : Word) (b : Byte) :
    (s.storeByte a b).mem = Memory.store s.mem a.toNat b := rfl
@[simp] theorem storeByte_stored (s : State) (a : Word) (b : Byte) :
    (s.storeByte a b).stored = insertAddr s.stored a.toNat := rfl
@[simp] theorem storeByte_time (s : State) (a : Word) (b : Byte) : (s.storeByte a b).time = s.time := rfl
@[simp] theorem storeByte_inputs (s : State) (a : Word) (b : Byte) : (s.storeByte a b).inputs = s.inputs := rfl
@[simp] theorem storeByte_plat (s : State) (a : Word) (b : Byte) : (s.storeByte a b).plat = s.plat := rfl
@[simp] theorem x_storeByte (s : State) (a : Word) (b : Byte) (m : RegNum) : (s.storeByte a b).x m = s.x m := rfl
@[simp] theorem f_storeByte (s : State) (a : Word) (b : Byte) (m : RegNum) : (s.storeByte a b).f m = s.f m := rfl
@[simp] theorem fd64_storeByte (s : State) (a : Word) (b : Byte) (m : RegNum) :
    (s.storeByte a b).fd64 m = s.fd64 m := rfl
@[simp] theorem el_storeByte (s : State) (a : Word) (b : Byte) : (s.storeByte a b).el = s.el := rfl
@[simp] theorem userMode_storeByte (s : State) (a : Word) (b : Byte) : (s.storeByte a b).userMode = s.userMode := rfl

@[simp] theorem trapEntry_gpr (s : State) (c : ExcCode) (v : Option Word) : (s.trapEntry c v).gpr = s.gpr := rfl
@[simp] theorem trapEntry_pc (s : State) (c : ExcCode) (v : Option Word) :
    (s.trapEntry c v).pc = s.plat.excVector := rfl
@[simp] theorem trapEntry_npc (s : State) (c : ExcCode) (v : Option Word) :
    (s.trapEntry c v).npc = s.plat.excVector + 4#32 := rfl
@[simp] theorem trapEntry_inDs (s : State) (c : ExcCode) (v : Option Word) : (s.trapEntry c v).inDs = false := rfl
@[simp] theorem trapEntry_hi (s : State) (c : ExcCode) (v : Option Word) : (s.trapEntry c v).hi = s.hi := rfl
@[simp] theorem trapEntry_lo (s : State) (c : ExcCode) (v : Option Word) : (s.trapEntry c v).lo = s.lo := rfl
@[simp] theorem trapEntry_fpr (s : State) (c : ExcCode) (v : Option Word) : (s.trapEntry c v).fpr = s.fpr := rfl
@[simp] theorem trapEntry_fpcond (s : State) (c : ExcCode) (v : Option Word) :
    (s.trapEntry c v).fpcond = s.fpcond := rfl
@[simp] theorem trapEntry_status (s : State) (c : ExcCode) (v : Option Word) :
    (s.trapEntry c v).status = statusWithEl s.status true := rfl
@[simp] theorem trapEntry_cause (s : State) (c : ExcCode) (v : Option Word) :
    (s.trapEntry c v).cause = causeWith s.cause (if s.el then s.cause.getLsbD 31 else s.inDs) c.number := rfl
@[simp] theorem trapEntry_epc (s : State) (c : ExcCode) (v : Option Word) :
    (s.trapEntry c v).epc = if s.el then s.epc else if s.inDs then s.pc - 4#32 else s.pc := rfl
@[simp] theorem trapEntry_badVAddr (s : State) (c : ExcCode) (v : Option Word) :
    (s.trapEntry c v).badVAddr = v.getD s.badVAddr := rfl
@[simp] theorem trapEntry_llBit (s : State) (c : ExcCode) (v : Option Word) : (s.trapEntry c v).llBit = s.llBit := rfl
@[simp] theorem trapEntry_llAddr (s : State) (c : ExcCode) (v : Option Word) :
    (s.trapEntry c v).llAddr = s.llAddr := rfl
@[simp] theorem trapEntry_llTouched (s : State) (c : ExcCode) (v : Option Word) :
    (s.trapEntry c v).llTouched = s.llTouched := rfl
@[simp] theorem trapEntry_mem (s : State) (c : ExcCode) (v : Option Word) : (s.trapEntry c v).mem = s.mem := rfl
@[simp] theorem trapEntry_stored (s : State) (c : ExcCode) (v : Option Word) :
    (s.trapEntry c v).stored = s.stored := rfl
@[simp] theorem trapEntry_time (s : State) (c : ExcCode) (v : Option Word) : (s.trapEntry c v).time = s.time := rfl
@[simp] theorem trapEntry_inputs (s : State) (c : ExcCode) (v : Option Word) :
    (s.trapEntry c v).inputs = s.inputs := rfl
@[simp] theorem trapEntry_plat (s : State) (c : ExcCode) (v : Option Word) : (s.trapEntry c v).plat = s.plat := rfl
@[simp] theorem x_trapEntry (s : State) (c : ExcCode) (v : Option Word) (m : RegNum) :
    (s.trapEntry c v).x m = s.x m := rfl
@[simp] theorem f_trapEntry (s : State) (c : ExcCode) (v : Option Word) (m : RegNum) :
    (s.trapEntry c v).f m = s.f m := rfl
@[simp] theorem fd64_trapEntry (s : State) (c : ExcCode) (v : Option Word) (m : RegNum) :
    (s.trapEntry c v).fd64 m = s.fd64 m := rfl
@[simp] theorem byte_trapEntry (s : State) (c : ExcCode) (v : Option Word) (m : Word) :
    (s.trapEntry c v).byte m = s.byte m := rfl

@[simp] theorem exceptionReturn_gpr (s : State) : (s.exceptionReturn).gpr = s.gpr := rfl
@[simp] theorem exceptionReturn_pc (s : State) : (s.exceptionReturn).pc = s.epc := rfl
@[simp] theorem exceptionReturn_npc (s : State) : (s.exceptionReturn).npc = s.epc + 4#32 := rfl
@[simp] theorem exceptionReturn_inDs (s : State) : (s.exceptionReturn).inDs = false := rfl
@[simp] theorem exceptionReturn_hi (s : State) : (s.exceptionReturn).hi = s.hi := rfl
@[simp] theorem exceptionReturn_lo (s : State) : (s.exceptionReturn).lo = s.lo := rfl
@[simp] theorem exceptionReturn_fpr (s : State) : (s.exceptionReturn).fpr = s.fpr := rfl
@[simp] theorem exceptionReturn_fpcond (s : State) : (s.exceptionReturn).fpcond = s.fpcond := rfl
@[simp] theorem exceptionReturn_status (s : State) : (s.exceptionReturn).status = statusWithEl s.status false := rfl
@[simp] theorem exceptionReturn_cause (s : State) : (s.exceptionReturn).cause = s.cause := rfl
@[simp] theorem exceptionReturn_epc (s : State) : (s.exceptionReturn).epc = s.epc := rfl
@[simp] theorem exceptionReturn_badVAddr (s : State) : (s.exceptionReturn).badVAddr = s.badVAddr := rfl
@[simp] theorem exceptionReturn_llBit (s : State) : (s.exceptionReturn).llBit = false := rfl
@[simp] theorem exceptionReturn_llAddr (s : State) : (s.exceptionReturn).llAddr = s.llAddr := rfl
@[simp] theorem exceptionReturn_llTouched (s : State) : (s.exceptionReturn).llTouched = false := rfl
@[simp] theorem exceptionReturn_mem (s : State) : (s.exceptionReturn).mem = s.mem := rfl
@[simp] theorem exceptionReturn_stored (s : State) : (s.exceptionReturn).stored = s.stored := rfl
@[simp] theorem exceptionReturn_time (s : State) : (s.exceptionReturn).time = s.time := rfl
@[simp] theorem exceptionReturn_inputs (s : State) : (s.exceptionReturn).inputs = s.inputs := rfl
@[simp] theorem exceptionReturn_plat (s : State) : (s.exceptionReturn).plat = s.plat := rfl
@[simp] theorem x_exceptionReturn (s : State) (m : RegNum) : (s.exceptionReturn).x m = s.x m := rfl
@[simp] theorem f_exceptionReturn (s : State) (m : RegNum) : (s.exceptionReturn).f m = s.f m := rfl
@[simp] theorem fd64_exceptionReturn (s : State) (m : RegNum) : (s.exceptionReturn).fd64 m = s.fd64 m := rfl
@[simp] theorem byte_exceptionReturn (s : State) (m : Word) : (s.exceptionReturn).byte m = s.byte m := rfl

@[simp] theorem advance_gpr (s : State) : (s.advance).gpr = s.gpr := rfl
@[simp] theorem advance_pc (s : State) : (s.advance).pc = s.npc := rfl
@[simp] theorem advance_npc (s : State) : (s.advance).npc = s.npc + 4#32 := rfl
@[simp] theorem advance_inDs (s : State) : (s.advance).inDs = false := rfl
@[simp] theorem advance_hi (s : State) : (s.advance).hi = s.hi := rfl
@[simp] theorem advance_lo (s : State) : (s.advance).lo = s.lo := rfl
@[simp] theorem advance_fpr (s : State) : (s.advance).fpr = s.fpr := rfl
@[simp] theorem advance_fpcond (s : State) : (s.advance).fpcond = s.fpcond := rfl
@[simp] theorem advance_status (s : State) : (s.advance).status = s.status := rfl
@[simp] theorem advance_cause (s : State) : (s.advance).cause = s.cause := rfl
@[simp] theorem advance_epc (s : State) : (s.advance).epc = s.epc := rfl
@[simp] theorem advance_badVAddr (s : State) : (s.advance).badVAddr = s.badVAddr := rfl
@[simp] theorem advance_llBit (s : State) : (s.advance).llBit = s.llBit := rfl
@[simp] theorem advance_llAddr (s : State) : (s.advance).llAddr = s.llAddr := rfl
@[simp] theorem advance_llTouched (s : State) : (s.advance).llTouched = s.llTouched := rfl
@[simp] theorem advance_mem (s : State) : (s.advance).mem = s.mem := rfl
@[simp] theorem advance_stored (s : State) : (s.advance).stored = s.stored := rfl
@[simp] theorem advance_time (s : State) : (s.advance).time = s.time := rfl
@[simp] theorem advance_inputs (s : State) : (s.advance).inputs = s.inputs := rfl
@[simp] theorem advance_plat (s : State) : (s.advance).plat = s.plat := rfl
@[simp] theorem x_advance (s : State) (m : RegNum) : (s.advance).x m = s.x m := rfl
@[simp] theorem f_advance (s : State) (m : RegNum) : (s.advance).f m = s.f m := rfl
@[simp] theorem fd64_advance (s : State) (m : RegNum) : (s.advance).fd64 m = s.fd64 m := rfl
@[simp] theorem byte_advance (s : State) (m : Word) : (s.advance).byte m = s.byte m := rfl
@[simp] theorem el_advance (s : State) : (s.advance).el = s.el := rfl
@[simp] theorem userMode_advance (s : State) : (s.advance).userMode = s.userMode := rfl

@[simp] theorem transfer_gpr (s : State) (k : Bool) (w : Word) : (s.transfer k w).gpr = s.gpr := rfl
@[simp] theorem transfer_pc (s : State) (k : Bool) (w : Word) : (s.transfer k w).pc = s.npc := rfl
@[simp] theorem transfer_npc (s : State) (k : Bool) (w : Word) :
    (s.transfer k w).npc = if k then w else s.npc + 4#32 := rfl
@[simp] theorem transfer_inDs (s : State) (k : Bool) (w : Word) : (s.transfer k w).inDs = true := rfl
@[simp] theorem transfer_hi (s : State) (k : Bool) (w : Word) : (s.transfer k w).hi = s.hi := rfl
@[simp] theorem transfer_lo (s : State) (k : Bool) (w : Word) : (s.transfer k w).lo = s.lo := rfl
@[simp] theorem transfer_fpr (s : State) (k : Bool) (w : Word) : (s.transfer k w).fpr = s.fpr := rfl
@[simp] theorem transfer_fpcond (s : State) (k : Bool) (w : Word) : (s.transfer k w).fpcond = s.fpcond := rfl
@[simp] theorem transfer_status (s : State) (k : Bool) (w : Word) : (s.transfer k w).status = s.status := rfl
@[simp] theorem transfer_cause (s : State) (k : Bool) (w : Word) : (s.transfer k w).cause = s.cause := rfl
@[simp] theorem transfer_epc (s : State) (k : Bool) (w : Word) : (s.transfer k w).epc = s.epc := rfl
@[simp] theorem transfer_badVAddr (s : State) (k : Bool) (w : Word) : (s.transfer k w).badVAddr = s.badVAddr := rfl
@[simp] theorem transfer_llBit (s : State) (k : Bool) (w : Word) : (s.transfer k w).llBit = s.llBit := rfl
@[simp] theorem transfer_llAddr (s : State) (k : Bool) (w : Word) : (s.transfer k w).llAddr = s.llAddr := rfl
@[simp] theorem transfer_llTouched (s : State) (k : Bool) (w : Word) : (s.transfer k w).llTouched = s.llTouched := rfl
@[simp] theorem transfer_mem (s : State) (k : Bool) (w : Word) : (s.transfer k w).mem = s.mem := rfl
@[simp] theorem transfer_stored (s : State) (k : Bool) (w : Word) : (s.transfer k w).stored = s.stored := rfl
@[simp] theorem transfer_time (s : State) (k : Bool) (w : Word) : (s.transfer k w).time = s.time := rfl
@[simp] theorem transfer_inputs (s : State) (k : Bool) (w : Word) : (s.transfer k w).inputs = s.inputs := rfl
@[simp] theorem transfer_plat (s : State) (k : Bool) (w : Word) : (s.transfer k w).plat = s.plat := rfl
@[simp] theorem x_transfer (s : State) (k : Bool) (w : Word) (m : RegNum) : (s.transfer k w).x m = s.x m := rfl
@[simp] theorem f_transfer (s : State) (k : Bool) (w : Word) (m : RegNum) : (s.transfer k w).f m = s.f m := rfl
@[simp] theorem fd64_transfer (s : State) (k : Bool) (w : Word) (m : RegNum) :
    (s.transfer k w).fd64 m = s.fd64 m := rfl
@[simp] theorem byte_transfer (s : State) (k : Bool) (w : Word) (m : Word) : (s.transfer k w).byte m = s.byte m := rfl
@[simp] theorem el_transfer (s : State) (k : Bool) (w : Word) : (s.transfer k w).el = s.el := rfl
@[simp] theorem userMode_transfer (s : State) (k : Bool) (w : Word) : (s.transfer k w).userMode = s.userMode := rfl

end Sys2Proof.Machine
end

