-- ==== Sys2Proof/Laws/Memory.lean ====
section
/-! SUPPORT. Memory and registers: a read after a write, and that every memory operation keeps the canonical form. -/

namespace Sys2Proof.Machine

/-! ### Memory -/

@[simp] theorem lookup_store_self (m : Memory) (a : Nat) (b : Byte) :
    Memory.lookup (Memory.store m a b) a = some b := by
  induction m with
  | nil => simp [Memory.store, Memory.lookup]
  | cons c m ih =>
    simp only [Memory.store]
    split
    · simp [Memory.lookup]
    · split
      · simp [Memory.lookup]
      · simp [Memory.lookup, ih, Ne.symm ‹¬ a = c.1›]

theorem lookup_store_other (m : Memory) {a a' : Nat} (b : Byte) (h : a' ≠ a) :
    Memory.lookup (Memory.store m a b) a' = Memory.lookup m a' := by
  induction m with
  | nil => simp [Memory.store, Memory.lookup, h.symm]
  | cons c m ih =>
    simp only [Memory.store]
    split
    · simp [Memory.lookup, h.symm]
    · split
      · rename_i heq
        simp [Memory.lookup, h.symm, ← heq]
      · simp [Memory.lookup, ih]

theorem mem_store {m : Memory} {a : Nat} {b : Byte} {c : Host.Cell} (h : c ∈ Memory.store m a b) :
    c = (a, b) ∨ c ∈ m := by
  induction m with
  | nil => simpa [Memory.store] using h
  | cons d m ih =>
    simp only [Memory.store] at h
    split at h
    · simpa using h
    · split at h
      · rcases List.mem_cons.1 h with h | h
        · exact .inl h
        · exact .inr (List.mem_cons_of_mem _ h)
      · rcases List.mem_cons.1 h with h | h
        · exact .inr (h ▸ List.mem_cons_self)
        · exact (ih h).imp_right (List.mem_cons_of_mem _)

/-- A write keeps the canonical form. -/
theorem store_wf {m : Memory} {a : Nat} (b : Byte) (ha : a < 2 ^ 32) (h : Memory.wf m) :
    Memory.wf (Memory.store m a b) := by
  refine ⟨?_, fun c hc => ?_⟩
  · have h1 := h.1
    clear h
    induction m with
    | nil => simp [Memory.store]
    | cons d m ih =>
      obtain ⟨hd, hm⟩ := List.pairwise_cons.1 h1
      simp only [Memory.store]
      split
      · refine List.pairwise_cons.2 ⟨fun c hc => ?_, h1⟩
        rcases List.mem_cons.1 hc with rfl | hc
        · assumption
        · exact lt_trans ‹_› (hd c hc)
      · split
        · refine List.pairwise_cons.2 ⟨fun c hc => ?_, hm⟩
          have := hd c hc
          simp only
          omega
        · refine List.pairwise_cons.2 ⟨fun c hc => ?_, ih hm⟩
          rcases mem_store hc with rfl | hc
          · simp only
            omega
          · exact hd c hc
  · rcases mem_store hc with rfl | hc
    · exact ha
    · exact h.2 c hc

theorem nil_wf : Memory.wf [] := by simp [Memory.wf]

/-! ### Lists of addresses -/

theorem mem_insertAddr {l : List Nat} {a b : Nat} : b ∈ insertAddr l a ↔ b = a ∨ b ∈ l := by
  induction l with
  | nil => simp [insertAddr]
  | cons c l ih =>
    simp only [insertAddr]
    split
    · simp
    · split
      · simp [‹a = c›]
      · simp only [List.mem_cons, ih]
        tauto

theorem insertAddr_rising {l : List Nat} (a : Nat) (h : l.Pairwise (· < ·)) : (insertAddr l a).Pairwise (· < ·) := by
  induction l with
  | nil => simp [insertAddr]
  | cons c l ih =>
    obtain ⟨hc, hl⟩ := List.pairwise_cons.1 h
    simp only [insertAddr]
    split
    · refine List.pairwise_cons.2 ⟨fun d hd => ?_, h⟩
      rcases List.mem_cons.1 hd with rfl | hd
      · assumption
      · exact lt_trans ‹_› (hc d hd)
    · split
      · exact h
      · refine List.pairwise_cons.2 ⟨fun d hd => ?_, ih hl⟩
        rcases mem_insertAddr.1 hd with rfl | hd
        · omega
        · exact hc d hd

theorem mem_eraseAddr {l : List Nat} {a b : Nat} : b ∈ eraseAddr l a ↔ b ∈ l ∧ b ≠ a := by
  simp [eraseAddr]

theorem eraseAddr_rising {l : List Nat} (a : Nat) (h : l.Pairwise (· < ·)) : (eraseAddr l a).Pairwise (· < ·) :=
  List.Pairwise.filter _ h

/-! ### Registers -/

theorem regRead_regWrite (r : Vector Word 32) (n m : RegNum) (v : Word) :
    regRead (regWrite r n v) m = if m = n then v else regRead r m := by
  have h : (n.toNat = m.toNat) ↔ m = n := by rw [BitVec.toNat_inj]; exact eq_comm
  simp only [regRead, regWrite, Vector.getElem_set]
  simp only [h]

theorem x_setX (s : State) (n m : RegNum) (v : Word) :
    (s.setX n v).x m = if m = n ∧ m ≠ 0#5 then v else s.x m := by
  by_cases hm : m = 0#5
  · simp [State.x, hm]
  · by_cases hn : n = 0#5
    · subst hn
      simp [State.x, hm]
    · simp only [State.x, hm, if_false, setX_gpr, hn, regRead_regWrite, ne_eq, not_false_eq_true, and_true]

@[simp] theorem x_zero (s : State) : s.x 0#5 = 0#32 := by simp [State.x]

theorem f_setF (s : State) (n m : RegNum) (v : Word) : (s.setF n v).f m = if m = n then v else s.f m := by
  simp only [State.f, setF_fpr, regRead_regWrite]

theorem succ_ne_self (n : RegNum) : n ≠ n + 1#5 := by bv_omega

theorem f_setFd64 (s : State) (n m : RegNum) (v : Dword) :
    (s.setFd64 n v).f m =
      if m = n then v.extractLsb' 32 32 else if m = n + 1#5 then v.extractLsb' 0 32 else s.f m := by
  simp only [State.f, setFd64_fpr, regRead_regWrite]
  by_cases h1 : m = n
  · simp [h1, succ_ne_self n]
  · simp [h1]

/-! ### Reading memory after a store -/

theorem byte_storeByte (s : State) (a c : Word) (b : Byte) :
    (s.storeByte a b).byte c = if c = a then b else s.byte c := by
  by_cases h : c = a
  · simp [State.byte, h]
  · have h' : c.toNat ≠ a.toNat := fun e => h (BitVec.eq_of_toNat_eq e)
    simp only [State.byte, storeByte_mem, lookup_store_other _ _ h', if_neg h]

/-- Everything storing bytes leaves alone. -/
theorem storeBytes_frame (s : State) (a : Word) (bytes : List Byte) :
    s.storeBytes a bytes = { s with
      mem := (s.storeBytes a bytes).mem
      stored := (s.storeBytes a bytes).stored
      llTouched := (s.storeBytes a bytes).llTouched } := by
  induction bytes generalizing s a with
  | nil => rfl
  | cons b rest ih =>
    show (s.storeByte a b).storeBytes (a + 1#32) rest = _
    rw [ih]
    rfl

theorem ofNat_ne_zero_of_lt {k : Nat} (h0 : k ≠ 0) (h : k < 2 ^ 32) : BitVec.ofNat 32 k ≠ 0#32 := by
  intro e
  have := congrArg BitVec.toNat e
  simp at this
  omega

/-- A byte outside the stored ones reads as before. -/
theorem byte_storeBytes_other (s : State) (a c : Word) (bytes : List Byte)
    (h : ∀ k, k < bytes.length → c ≠ a + BitVec.ofNat 32 k) : (s.storeBytes a bytes).byte c = s.byte c := by
  induction bytes generalizing s a with
  | nil => rfl
  | cons b rest ih =>
    show ((s.storeByte a b).storeBytes (a + 1#32) rest).byte c = _
    rw [ih, byte_storeByte, if_neg]
    · simpa using h 0 (by simp)
    · intro k hk
      have := h (k + 1) (by simpa using hk)
      rw [BitVec.ofNat_add] at this
      intro e
      apply this
      rw [e, BitVec.add_assoc, BitVec.add_comm (BitVec.ofNat 32 k)]

/-- A stored byte is read back. -/
theorem byte_storeBytes_self (s : State) (a : Word) (bytes : List Byte) (hlen : bytes.length ≤ 2 ^ 32) (k : Nat)
    (hk : k < bytes.length) : (s.storeBytes a bytes).byte (a + BitVec.ofNat 32 k) = bytes[k] := by
  induction bytes generalizing s a k with
  | nil => simp at hk
  | cons b rest ih =>
    show ((s.storeByte a b).storeBytes (a + 1#32) rest).byte _ = _
    simp only [List.length_cons] at hlen hk
    cases k with
    | zero =>
      rw [byte_storeBytes_other]
      · simp [byte_storeByte]
      · intro j hj e
        have h1 := ofNat_ne_zero_of_lt (k := j + 1) (by omega) (by omega)
        apply h1
        rw [BitVec.ofNat_add]
        have h2 : a + BitVec.ofNat 32 0 = a := by simp
        rw [h2, BitVec.add_assoc] at e
        have h3 : (0 : Word) = 1#32 + BitVec.ofNat 32 j := by
          have := congrArg (fun z => z - a) e
          simpa [BitVec.add_comm a, BitVec.add_sub_cancel] using this
        rw [BitVec.add_comm]
        exact h3.symm
    | succ j =>
      have e : a + BitVec.ofNat 32 (j + 1) = a + 1#32 + BitVec.ofNat 32 j := by
        rw [BitVec.ofNat_add, BitVec.add_assoc, BitVec.add_comm (BitVec.ofNat 32 j)]
      rw [e, ih _ _ (by omega) j (by omega)]
      rfl

/-! ### The canonical form is kept by every memory operation of the state -/

theorem storeByte_wf {s : State} (a : Word) (b : Byte) (h : Memory.wf s.mem) : Memory.wf (s.storeByte a b).mem :=
  store_wf b a.isLt h

theorem storeBytes_wf {s : State} (a : Word) (bytes : List Byte) (h : Memory.wf s.mem) :
    Memory.wf (s.storeBytes a bytes).mem := by
  induction bytes generalizing s a with
  | nil => exact h
  | cons b rest ih => exact ih _ (storeByte_wf a b h)

theorem storeBytes_stored_rising {s : State} (a : Word) (bytes : List Byte) (h : s.stored.Pairwise (· < ·)) :
    (s.storeBytes a bytes).stored.Pairwise (· < ·) := by
  induction bytes generalizing s a with
  | nil => exact h
  | cons b rest ih => exact ih _ (insertAddr_rising _ h)

/-- The addresses a store adds to the stored ones (R85). -/
theorem mem_storeBytes_stored {s : State} (a : Word) (bytes : List Byte) (c : Nat) :
    c ∈ (s.storeBytes a bytes).stored ↔
      c ∈ s.stored ∨ ∃ k, k < bytes.length ∧ c = (a + BitVec.ofNat 32 k).toNat := by
  induction bytes generalizing s a with
  | nil => simp [State.storeBytes]
  | cons b rest ih =>
    show c ∈ ((s.storeByte a b).storeBytes (a + 1#32) rest).stored ↔ _
    rw [ih, storeByte_stored, mem_insertAddr]
    constructor
    · rintro ((h | h) | ⟨k, hk, h⟩)
      · exact .inr ⟨0, by simp, by simp [h]⟩
      · exact .inl h
      · refine .inr ⟨k + 1, by simpa using hk, ?_⟩
        rw [h, BitVec.ofNat_add, BitVec.add_assoc, BitVec.add_comm (BitVec.ofNat 32 k)]
    · rintro (h | ⟨k, hk, h⟩)
      · exact .inl (.inr h)
      · cases k with
        | zero => exact .inl (.inl (by simpa using h))
        | succ j =>
          refine .inr ⟨j, by simpa using hk, ?_⟩
          rw [h, BitVec.ofNat_add, BitVec.add_assoc, BitVec.add_comm (BitVec.ofNat 32 j)]

theorem storeBytes_stored_bounded {s : State} (a : Word) (bytes : List Byte) (h : ∀ c ∈ s.stored, c < 2 ^ 32) :
    ∀ c ∈ (s.storeBytes a bytes).stored, c < 2 ^ 32 := by
  intro c hc
  rcases (mem_storeBytes_stored a bytes c).1 hc with hc | ⟨k, -, rfl⟩
  · exact h c hc
  · exact BitVec.isLt _

/-- An own store is recorded against the link only while the link is set. -/
theorem storeBytes_touched {s : State} (a : Word) (bytes : List Byte) (h : s.llTouched = true → s.llBit = true) :
    (s.storeBytes a bytes).llTouched = true → s.llBit = true := by
  induction bytes generalizing s a with
  | nil => exact h
  | cons b rest ih =>
    refine ih (s := s.storeByte a b) _ (fun h' => ?_)
    simp only [storeByte_llTouched, Bool.or_eq_true, Bool.and_eq_true] at h'
    rcases h' with h' | h'
    · exact h h'
    · exact h'.1

theorem placeBytes_wf {s : State} (a : Word) (bytes : List Byte) (h : Memory.wf s.mem) :
    Memory.wf (s.placeBytes a bytes).mem := by
  induction bytes generalizing s a with
  | nil => exact h
  | cons b rest ih => exact ih _ (store_wf b a.isLt h)

theorem externalWrite_wf {s : State} (a : Word) (b : Byte) (h : Memory.wf s.mem) :
    Memory.wf (s.externalWrite a b).mem := by
  unfold State.externalWrite
  split
  · exact store_wf b a.isLt h
  · exact h

theorem externalWrites_wf {s : State} (writes : List (Word × Byte)) (h : Memory.wf s.mem) :
    Memory.wf (s.externalWrites writes).mem := by
  induction writes generalizing s with
  | nil => exact h
  | cons w rest ih => exact ih (externalWrite_wf w.1 w.2 h)

theorem beginStep_wf {s : State} (h : Memory.wf s.mem) : Memory.wf s.beginStep.mem := by
  unfold State.beginStep
  split
  · exact h
  · exact externalWrites_wf _ h

theorem reset_wf (p : Platform) (lines : BitVec 6) : Memory.wf (State.resetOn p lines).mem := nil_wf

end Sys2Proof.Machine
end

