-- ==== Sys2Proof/Laws/Ops.lean ====
section
/-! SUPPORT. What each shared operation can do, said once: an equation when its checks pass, and an inversion of
everything it can answer. -/

namespace Sys2Proof.Machine

/-! ### Bits of Status and Cause -/

theorem statusWithEl_true (w : Word) : statusWithEl w true = w ||| 2#32 := by
  refine BitVec.eq_of_getLsbD_eq fun i hi => ?_
  unfold statusWithEl
  simp only [BitVec.getLsbD_append, BitVec.getLsbD_extractLsb', BitVec.getLsbD_or]
  interval_cases i <;> simp

theorem statusWithEl_false (w : Word) : statusWithEl w false = w &&& ~~~2#32 := by
  refine BitVec.eq_of_getLsbD_eq fun i hi => ?_
  unfold statusWithEl
  simp only [BitVec.getLsbD_append, BitVec.getLsbD_extractLsb', BitVec.getLsbD_and, BitVec.getLsbD_not]
  interval_cases i <;> simp

theorem causeWith_getLsbD (w : Word) (bd : Bool) (code : BitVec 5) (k : Nat) (hk : k < 32) :
    (causeWith w bd code).getLsbD k =
      if k = 31 then bd else if 2 ≤ k ∧ k ≤ 6 then code.getLsbD (k - 2) else w.getLsbD k := by
  unfold causeWith
  simp only [BitVec.getLsbD_append, BitVec.getLsbD_extractLsb']
  interval_cases k <;> simp

theorem causeWith_code (w : Word) (bd : Bool) (code : BitVec 5) : (causeWith w bd code).extractLsb' 2 5 = code := by
  ext i hi
  rw [BitVec.getElem_extractLsb', causeWith_getLsbD _ _ _ _ (by omega), if_neg (by omega), if_pos (by omega)]
  simp [BitVec.getLsbD_eq_getElem hi]

theorem causeWithLines_getLsbD (w : Word) (lines : BitVec 6) (k : Nat) (hk : k < 32) :
    (causeWithLines w lines).getLsbD k = if 10 ≤ k ∧ k ≤ 15 then lines.getLsbD (k - 10) else w.getLsbD k := by
  unfold causeWithLines
  simp only [BitVec.getLsbD_append, BitVec.getLsbD_extractLsb']
  interval_cases k <;> simp

/-! ### How an operation ends -/

theorem retire_next {s t : State} : retire s = .next t ↔ t = s.advance := by
  simp only [retire, Host.Outcome.next.injEq]
  exact eq_comm

theorem raise_next {s t : State} {c : ExcCode} : s.raise c = .next t ↔ t = s.trapEntry c none := by
  simp only [State.raise, Host.Outcome.next.injEq]
  exact eq_comm

theorem raiseAddress_next {s t : State} {c : ExcCode} {a : Word} :
    s.raiseAddress c a = .next t ↔ t = s.trapEntry c (some a) := by
  simp only [State.raiseAddress, Host.Outcome.next.injEq]
  exact eq_comm

theorem branch_next {s t : State} {k : Bool} {w : Word} (h : s.branch k w = .next t) :
    s.inDs = false ∧ t = s.transfer k w := by
  unfold State.branch at h
  split at h
  · cases h
  · exact ⟨by simpa using ‹¬ s.inDs = true›, by simpa using h.symm⟩

theorem withDoubles_next {names : List RegNum} {run : Result} {t : State} (h : withDoubles names run = .next t) :
    names.all evenReg = true ∧ run = .next t := by
  unfold withDoubles at h
  split at h
  · exact ⟨‹_›, h⟩
  · cases h

theorem withDoubles_even {names : List RegNum} {run : Result} (h : names.all evenReg = true) :
    withDoubles names run = run := if_pos h

theorem withDoubles_odd {names : List RegNum} {run : Result} (h : names.all evenReg = false) :
    withDoubles names run = .refused .oddDoubleRegister := by
  simp [withDoubles, h]

/-! ### Data accesses -/

theorem userMode_iff (s : State) : s.userMode = true ↔ inUserMode s := by
  simp [State.userMode, State.um, State.el, inUserMode]

theorem aboveUserLimit_iff (s : State) (a : Word) : s.aboveUserLimit a = true ↔ aboveLimit s a := by
  simp [State.aboveUserLimit, aboveLimit, userMode_iff, BitVec.msb_eq_decide]

theorem serves_iff (s : State) (kind : AccessKind) (first : Word) (n : Nat) :
    serves s.plat kind first n = true ↔ served s kind first n := by
  simp [serves, served, servesByte, accessWidth, List.all_eq_true]

/-- A data access whose checks pass is performed. -/
theorem access_ok {s : State} {kind : AccessKind} {align : Nat} {a first : Word} {n : Nat} {run : Result}
    (h : accessOk s kind align a first n) : s.access kind align a first n run = run := by
  obtain ⟨h1, h2, h3⟩ := h
  unfold State.access
  rw [if_neg (by simpa using h1), if_neg (by rwa [aboveUserLimit_iff]), if_pos ((serves_iff ..).2 h3)]

/-- A misaligned data access, or one above the user limit, is an address error. -/
theorem access_addressError {s : State} {kind : AccessKind} {align : Nat} {a first : Word} {n : Nat} {run : Result}
    (h : a.toNat % align ≠ 0 ∨ aboveLimit s a) :
    s.access kind align a first n run = s.raiseAddress (addressError kind) a := by
  unfold State.access
  by_cases h1 : a.toNat % align = 0
  · rw [if_neg (by simpa using h1), if_pos ((aboveUserLimit_iff ..).2 (h.resolve_left (by simpa using h1)))]
  · rw [if_pos h1]

/-- A data access that passes the address checks and is not served is a bus error. -/
theorem access_busError {s : State} {kind : AccessKind} {align : Nat} {a first : Word} {n : Nat} {run : Result}
    (h1 : a.toNat % align = 0) (h2 : ¬ aboveLimit s a) (h3 : ¬ served s kind first n) :
    s.access kind align a first n run = s.raise .dbe := by
  unfold State.access
  rw [if_neg (by simpa using h1), if_neg (by rwa [aboveUserLimit_iff]), if_neg (by rwa [serves_iff])]

/-- Everything a data access can do: it is performed, or one of three exceptions is taken. -/
theorem access_next {s t : State} {kind : AccessKind} {align : Nat} {a first : Word} {n : Nat} {run : Result}
    (h : s.access kind align a first n run = .next t) :
    (accessOk s kind align a first n ∧ run = .next t) ∨
    ((a.toNat % align ≠ 0 ∨ aboveLimit s a) ∧ t = s.trapEntry (addressError kind) (some a)) ∨
    (¬ served s kind first n ∧ t = s.trapEntry .dbe none) := by
  by_cases h1 : a.toNat % align ≠ 0 ∨ aboveLimit s a
  · rw [access_addressError h1] at h
    exact .inr (.inl ⟨h1, raiseAddress_next.1 h⟩)
  · have h2 : a.toNat % align = 0 ∧ ¬ aboveLimit s a := by tauto
    by_cases h3 : served s kind first n
    · exact .inl ⟨⟨h2.1, h2.2, h3⟩, by rwa [access_ok ⟨h2.1, h2.2, h3⟩] at h⟩
    · rw [access_busError h2.1 h2.2 h3] at h
      exact .inr (.inr ⟨h3, raise_next.1 h⟩)

/-! ### Operations of one family -/

theorem overflowing_next {rd : RegNum} {r : Option Word} {s t : State} (h : overflowing rd r s = .next t) :
    (r = none ∧ t = s.trapEntry .ov none) ∨ ∃ v, r = some v ∧ t = (s.setX rd v).advance := by
  cases r with
  | none => exact .inl ⟨rfl, raise_next.1 h⟩
  | some v => exact .inr ⟨v, rfl, retire_next.1 h⟩

theorem kernelOnly_next {s t : State} {run : Result} (h : s.kernelOnly run = .next t) :
    (s.userMode = true ∧ t = s.trapEntry .cpu none) ∨ (s.userMode = false ∧ run = .next t) := by
  unfold State.kernelOnly at h
  split at h
  · exact .inl ⟨‹_›, raise_next.1 h⟩
  · exact .inr ⟨by simpa using ‹¬ s.userMode = true›, h⟩

theorem kernelOnly_kernel {s : State} {run : Result} (h : s.userMode = false) : s.kernelOnly run = run := by
  simp [State.kernelOnly, h]

theorem kernelOnly_user {s : State} {run : Result} (h : s.userMode = true) : s.kernelOnly run = s.raise .cpu := by
  simp [State.kernelOnly, h]

theorem trapIf_next {s t : State} {c : Bool} (h : s.trapIf c = .next t) :
    (c = true ∧ t = s.trapEntry .tr none) ∨ (c = false ∧ t = s.advance) := by
  cases c with
  | true => exact .inl ⟨rfl, raise_next.1 h⟩
  | false => exact .inr ⟨rfl, retire_next.1 h⟩

/-- The control registers, by number. -/
theorem readControl_cases (s : State) (n : RegNum) (k : Word → Result) :
    (n = 8#5 ∧ s.readControl n k = k s.badVAddr) ∨ (n = 12#5 ∧ s.readControl n k = k s.status) ∨
    (n = 13#5 ∧ s.readControl n k = k s.cause) ∨ (n = 14#5 ∧ s.readControl n k = k s.epc) ∨
    (controlRegister n = false ∧ s.readControl n k = .refused .undescribedControlRegister) := by
  unfold State.readControl
  split
  · exact .inl ⟨rfl, rfl⟩
  · exact .inr (.inl ⟨rfl, rfl⟩)
  · exact .inr (.inr (.inl ⟨rfl, rfl⟩))
  · exact .inr (.inr (.inr (.inl ⟨rfl, rfl⟩)))
  · refine .inr (.inr (.inr (.inr ⟨?_, rfl⟩)))
    simp_all [controlRegister]

/-- What a write of a control register does, by number. -/
theorem writeControl_cases (s : State) (n : RegNum) (v : Word) (k : State → Result) :
    (n = 8#5 ∧ s.writeControl n v k = k s) ∨
    (n = 12#5 ∧ s.writeControl n v k = k { s with status := writeMasked statusMask s.status v }) ∨
    (n = 13#5 ∧ s.writeControl n v k = k { s with cause := writeMasked causeMask s.cause v }) ∨
    (n = 14#5 ∧ s.writeControl n v k = k { s with epc := v }) ∨
    (controlRegister n = false ∧ s.writeControl n v k = .refused .undescribedControlRegister) := by
  unfold State.writeControl
  split
  · exact .inl ⟨rfl, rfl⟩
  · exact .inr (.inl ⟨rfl, rfl⟩)
  · exact .inr (.inr (.inl ⟨rfl, rfl⟩))
  · exact .inr (.inr (.inr (.inl ⟨rfl, rfl⟩)))
  · refine .inr (.inr (.inr (.inr ⟨?_, rfl⟩)))
    simp_all [controlRegister]

/-- A read of a control register that is not refused gives some value. -/
theorem readControl_next {s t : State} {n : RegNum} {k : Word → Result} (h : s.readControl n k = .next t) :
    ∃ v, k v = .next t := by
  rcases readControl_cases s n k with ⟨-, e⟩ | ⟨-, e⟩ | ⟨-, e⟩ | ⟨-, e⟩ | ⟨-, e⟩ <;> rw [e] at h
  · exact ⟨_, h⟩
  · exact ⟨_, h⟩
  · exact ⟨_, h⟩
  · exact ⟨_, h⟩
  · cases h

/-- A write of a control register that is not refused changes Status, Cause or EPC, or nothing. -/
theorem writeControl_next {s t : State} {n : RegNum} {v : Word} {k : State → Result}
    (h : s.writeControl n v k = .next t) :
    ∃ u, k u = .next t ∧ (u = s ∨ u = { s with status := writeMasked statusMask s.status v } ∨
      u = { s with cause := writeMasked causeMask s.cause v } ∨ u = { s with epc := v }) := by
  rcases writeControl_cases s n v k with ⟨-, e⟩ | ⟨-, e⟩ | ⟨-, e⟩ | ⟨-, e⟩ | ⟨-, e⟩ <;> rw [e] at h
  · exact ⟨_, h, .inl rfl⟩
  · exact ⟨_, h, .inr (.inl rfl)⟩
  · exact ⟨_, h, .inr (.inr (.inl rfl))⟩
  · exact ⟨_, h, .inr (.inr (.inr rfl))⟩
  · cases h

/-- Everything `sc` can do once its address checks have passed. -/
theorem storeConditional_next {s t : State} {rt : RegNum} {a : Word} (h : s.storeConditional rt a = .next t) :
    (s.llBit = true ∧ s.llAddr = a ∧ s.scDrawnFailure = false ∧
      t = (((s.write32 a (s.x rt)).setX rt 1#32).clearLink).advance) ∨
    ((s.llBit = false ∨ (s.llAddr = a ∧ s.scDrawnFailure = true)) ∧
      t = ((s.setX rt 0#32).clearLink).advance) := by
  unfold State.storeConditional at h
  split at h
  · cases h
  · rename_i h1
    split at h
    · rename_i h2
      simp only [Bool.and_eq_true, Bool.not_eq_true'] at h2
      refine .inl ⟨h2.1, ?_, h2.2, retire_next.1 h⟩
      simpa [h2.1] using h1
    · rename_i h2
      refine .inr ⟨?_, retire_next.1 h⟩
      cases hb : s.llBit with
      | false => exact .inl rfl
      | true =>
        refine .inr ⟨?_, ?_⟩
        · simpa [hb] using h1
        · simpa [hb] using h2

/-! ### The step -/

/-- When a fetch gives a word, and which. -/
theorem fetch_word {s : State} (h1 : s.pc.toNat % 4 = 0) (h2 : ¬ aboveLimit s s.pc) (h3 : served s .fetch s.pc 4)
    (h4 : s.plat.coherentIfetch = true ∨ s.storedWord s.pc = false) : s.fetch = .word (s.read32 s.pc) := by
  unfold State.fetch
  rw [if_neg (by simpa using h1), if_neg (by rwa [aboveUserLimit_iff]), if_neg (by simpa using (serves_iff ..).2 h3),
    if_neg]
  rcases h4 with h4 | h4 <;> simp [h4]

/-- Everything a fetch can give. -/
theorem fetch_cases (s : State) :
    (s.fetch = .addressError ∧ (s.pc.toNat % 4 ≠ 0 ∨ aboveLimit s s.pc)) ∨
    (s.fetch = .busError ∧ s.pc.toNat % 4 = 0 ∧ ¬ aboveLimit s s.pc ∧ ¬ served s .fetch s.pc 4) ∨
    (s.fetch = .storedByte ∧ s.pc.toNat % 4 = 0 ∧ s.plat.coherentIfetch = false ∧ s.storedWord s.pc = true) ∨
    (s.fetch = .word (s.read32 s.pc) ∧ s.pc.toNat % 4 = 0) := by
  by_cases h1 : s.pc.toNat % 4 = 0
  · by_cases h2 : aboveLimit s s.pc
    · refine .inl ⟨?_, .inr h2⟩
      unfold State.fetch
      rw [if_neg (by simpa using h1), if_pos ((aboveUserLimit_iff ..).2 h2)]
    · by_cases h3 : served s .fetch s.pc 4
      · by_cases h4 : s.plat.coherentIfetch = true ∨ s.storedWord s.pc = false
        · exact .inr (.inr (.inr ⟨fetch_word h1 h2 h3 h4, h1⟩))
        · simp only [not_or, Bool.not_eq_true, Bool.not_eq_false] at h4
          refine .inr (.inr (.inl ⟨?_, h1, h4.1, h4.2⟩))
          unfold State.fetch
          rw [if_neg (by simpa using h1), if_neg (by rwa [aboveUserLimit_iff]),
            if_neg (by simpa using (serves_iff ..).2 h3), if_pos (by simp [h4.1, h4.2])]
      · refine .inr (.inl ⟨?_, h1, h2, h3⟩)
        unfold State.fetch
        rw [if_neg (by simpa using h1), if_neg (by rwa [aboveUserLimit_iff]), if_pos]
        simpa using mt (serves_iff ..).1 h3
  · refine .inl ⟨?_, .inl h1⟩
    unfold State.fetch
    rw [if_pos h1]

/-- Everything a step can do when it answers a next state: an interrupt, a fetch exception, RI, or an instruction. -/
theorem step_next {s t : State} (h : step s = .next t) :
    (s.beginStep.interruptPending = true ∧ t = s.beginStep.trapEntry .int none) ∨
    (s.beginStep.interruptPending = false ∧
      ((s.beginStep.fetch = .addressError ∧ t = s.beginStep.trapEntry .adel (some s.beginStep.pc)) ∨
       (s.beginStep.fetch = .busError ∧ t = s.beginStep.trapEntry .ibe none) ∨
       ∃ w, s.beginStep.fetch = .word w ∧
        ((decode w = .unassigned ∧ t = s.beginStep.trapEntry .ri none) ∨
         ∃ i, decode w = .instr i ∧ exec i s.beginStep = .next t))) := by
  unfold step at h
  split at h
  · exact .inl ⟨‹_›, raise_next.1 h⟩
  · refine .inr ⟨by simpa using ‹¬ _ = true›, ?_⟩
    unfold State.fetchExecute at h
    split at h
    · exact .inl ⟨‹_›, raiseAddress_next.1 h⟩
    · exact .inr (.inl ⟨‹_›, raise_next.1 h⟩)
    · cases h
    · rename_i w hw
      refine .inr (.inr ⟨w, hw, ?_⟩)
      unfold State.executeWord at h
      split at h
      · exact .inr ⟨_, ‹_›, h⟩
      · split at h
        · exact .inl ⟨‹_›, raise_next.1 h⟩
        · cases h
      · cases h

/-! ### The platform between two steps -/

/-- The bytes another agent may write (R78). -/
theorem mapsByte_eq (p : Platform) (a : Word) : mapsByte p a.toNat = mappedByte p a := by
  rw [Bool.eq_iff_iff]
  simp only [mapsByte, mappedByte, List.any_eq_true, regionCovers, Config.accessWidths, Bool.and_eq_true, Bool.or_eq_true,
    List.contains_iff_mem, decide_eq_true_eq]
  constructor
  · rintro ⟨kind, -, n, hn, r, hr, ⟨⟨hk, hw⟩, hb⟩, hs⟩
    refine ⟨r, hr, ⟨⟨?_, n, hw, ?_⟩, hb⟩, hs⟩
    · cases kind <;> simp_all [regionAllows]
    · simp only [List.mem_cons, List.not_mem_nil, or_false] at hn
      omega
  · rintro ⟨r, hr, ⟨⟨hk, n, hw, hn⟩, hb⟩, hs⟩
    have hn' : n ∈ [1, 2, 3, 4] := by
      simp only [List.mem_cons, List.not_mem_nil, or_false]
      omega
    obtain (hk | hk) | hk := hk
    · exact ⟨.fetch, by simp, n, hn', r, hr, ⟨⟨hk, hw⟩, hb⟩, hs⟩
    · exact ⟨.load, by simp, n, hn', r, hr, ⟨⟨hk, hw⟩, hb⟩, hs⟩
    · exact ⟨.store, by simp, n, hn', r, hr, ⟨⟨hk, hw⟩, hb⟩, hs⟩

/-- A write of another agent to a mapped byte (R78, R82). -/
theorem externalWrite_mapped {s : State} {a : Word} (h : mappedByte s.plat a = true) (b : Byte) :
    s.externalWrite a b = { s with
      mem := Memory.store s.mem a.toNat b
      llBit := s.llBit && !sameWord a s.llAddr
      llTouched := s.llTouched && !sameWord a s.llAddr } := by
  unfold State.externalWrite
  rw [mapsByte_eq, h]
  rfl

/-- A write of another agent to a byte that is not mapped does nothing (R78; log entry 24). -/
theorem externalWrite_unmapped {s : State} {a : Word} (h : mappedByte s.plat a = false) (b : Byte) :
    s.externalWrite a b = s := by
  unfold State.externalWrite
  rw [mapsByte_eq, h]
  rfl

/-- Everything a write of another agent leaves alone: memory and the link may change. -/
theorem externalWrite_frame (s : State) (a : Word) (b : Byte) :
    ∃ m l k, s.externalWrite a b = { s with mem := m, llBit := l, llTouched := k } := by
  unfold State.externalWrite
  split
  · exact ⟨_, _, _, rfl⟩
  · exact ⟨s.mem, s.llBit, s.llTouched, rfl⟩

theorem externalWrites_frame (s : State) (writes : List (Word × Byte)) :
    ∃ m l k, s.externalWrites writes = { s with mem := m, llBit := l, llTouched := k } := by
  induction writes generalizing s with
  | nil => exact ⟨s.mem, s.llBit, s.llTouched, rfl⟩
  | cons w rest ih =>
    obtain ⟨m, l, k, h⟩ := ih (s.externalWrite w.1 w.2)
    obtain ⟨m', l', k', h'⟩ := externalWrite_frame s w.1 w.2
    refine ⟨m, l, k, ?_⟩
    show (s.externalWrite w.1 w.2).externalWrites rest = _
    rw [h, h']

/-- A write of another agent never sets the link. -/
theorem externalWrites_link (s : State) (writes : List (Word × Byte)) :
    ((s.externalWrites writes).llBit = true → s.llBit = true) ∧
    ((s.llTouched = true → s.llBit = true) →
      (s.externalWrites writes).llTouched = true → (s.externalWrites writes).llBit = true) := by
  induction writes generalizing s with
  | nil => exact ⟨id, id⟩
  | cons w rest ih =>
    obtain ⟨h1, h2⟩ := ih (s.externalWrite w.1 w.2)
    have hb : (s.externalWrite w.1 w.2).llBit = true → s.llBit = true := by
      unfold State.externalWrite
      split
      · simp only [Bool.and_eq_true]
        exact And.left
      · exact id
    refine ⟨fun h => hb (h1 h), fun h => h2 ?_⟩
    unfold State.externalWrite
    split
    · simp only [Bool.and_eq_true]
      exact fun h' => ⟨h h'.1, h'.2⟩
    · exact h

/-- What stands before a step leaves alone, with or without an input: memory, the link and Cause may change. -/
theorem beginStep_frame (s : State) : ∃ m l k c, s.beginStep = { s with
    mem := m, llBit := l, llTouched := k, cause := c, time := s.time + 1, inputs := s.inputs.tail } := by
  unfold State.beginStep
  split
  · rename_i h
    exact ⟨s.mem, s.llBit, s.llTouched, s.cause, by simp [h]⟩
  · rename_i i rest h
    obtain ⟨m, l, k, e⟩ := externalWrites_frame
      { s with time := s.time + 1, inputs := rest, cause := causeWithLines s.cause i.intLines } i.writes
    exact ⟨m, l, k, causeWithLines s.cause i.intLines, by rw [e]; simp [h]⟩

end Sys2Proof.Machine
end

