-- ==== Sys2Proof/Laws/Effects.lean ====
section
/-! SUPPORT. What each shared way of ending an instruction does, in the terms of Safety: a register written, control
transferred, bytes stored, the link, an exception taken, a data access with its checks. -/

namespace Sys2Proof.Machine

/-! ### Results -/

theorem changesNothing_advance (s : State) : changesNothing s s.advance := ⟨rfl, fun _ => rfl⟩

theorem writesX_setX (s : State) (rd : RegNum) (v : Word) : writesX s (s.setX rd v).advance rd v :=
  ⟨fun n => x_setX s rd n v, rfl, fun _ => rfl⟩

theorem writesF_setF (s : State) (fd : RegNum) (v : Word) : writesF s (s.setF fd v).advance fd v :=
  ⟨fun n => f_setF s fd n v, rfl, fun _ => rfl⟩

theorem writesDouble_setFd64 (s : State) (fd : RegNum) (v : Dword) : writesDouble s (s.setFd64 fd v).advance fd v :=
  ⟨fun n => f_setFd64 s fd n v, rfl, fun _ => rfl⟩

theorem writesFpcond_setFpcond (s : State) (b : Bool) : writesFpcond s (s.setFpcond b).advance b :=
  ⟨rfl, fun _ => rfl⟩

theorem writesHiLo_setHi_setLo (s : State) (hi lo : Word) : writesHiLo s ((s.setHi hi).setLo lo).advance hi lo :=
  ⟨rfl, fun _ => rfl⟩

theorem writesHiLo_setLo_setHi (s : State) (hi lo : Word) : writesHiLo s ((s.setLo lo).setHi hi).advance hi lo :=
  ⟨rfl, fun _ => rfl⟩

theorem writesHiLo_setHi (s : State) (hi : Word) : writesHiLo s (s.setHi hi).advance hi s.lo := ⟨rfl, fun _ => rfl⟩

theorem writesHiLo_setLo (s : State) (lo : Word) : writesHiLo s (s.setLo lo).advance s.hi lo := ⟨rfl, fun _ => rfl⟩

theorem transfersTo_transfer (s : State) (taken : Bool) (target : Word) :
    transfersTo s (s.transfer taken target) (taken = true) target := by
  refine ⟨rfl, fun h => ?_, fun h => ?_, rfl, rfl, fun _ => rfl⟩
  · simp [State.transfer, h]
  · simp [State.transfer, h]

theorem linksTo_transfer (s : State) (rd : RegNum) (v target : Word) :
    linksTo s ((s.setX rd v).transfer true target) rd v target :=
  ⟨fun n => x_setX s rd n v, rfl, fun _ => rfl⟩

theorem linksWord_setLink (s : State) (rt : RegNum) (v a : Word) :
    linksWord s ((s.setX rt v).setLink a).advance rt v a :=
  ⟨fun n => x_setX s rt n v, rfl, fun _ => rfl⟩

/-! ### Stores -/

theorem bytesBecome_storeBytes (s : State) (a : Word) (bytes : List Byte) (h : bytes.length ≤ 2 ^ 32) :
    bytesBecome s (s.storeBytes a bytes) a bytes :=
  ⟨byte_storeBytes_self s a bytes h, fun b hb => byte_storeBytes_other s a b bytes hb, mem_storeBytes_stored a bytes⟩

/-- Two addresses lie in one aligned word when they agree above their two low bits. -/
theorem sameWord_iff (a b : Word) : sameWord a b = true ↔ a &&& ~~~3#32 = b &&& ~~~3#32 := by
  unfold sameWord
  rw [beq_iff_eq]
  constructor
  · intro h
    refine BitVec.eq_of_getLsbD_eq fun i hi => ?_
    have := congrArg (fun z => z.getLsbD (i - 2)) h
    simp only [BitVec.getLsbD_extractLsb'] at this
    simp only [BitVec.getLsbD_and, BitVec.getLsbD_not]
    interval_cases i <;> simp_all
  · intro h
    refine BitVec.eq_of_getLsbD_eq fun i hi => ?_
    have := congrArg (fun z => z.getLsbD (2 + i)) h
    simp only [BitVec.getLsbD_and, BitVec.getLsbD_not] at this
    simp only [BitVec.getLsbD_extractLsb']
    interval_cases i <;> simp_all

/-- A store is recorded against the link when it touches the linked word (R82). -/
theorem storeBytes_touched_iff (s : State) (a : Word) (bytes : List Byte) :
    (s.storeBytes a bytes).llTouched = true ↔ s.llTouched = true ∨ touchesLink s a bytes.length := by
  induction bytes generalizing s a with
  | nil => simp [State.storeBytes, touchesLink]
  | cons b rest ih =>
    show ((s.storeByte a b).storeBytes (a + 1#32) rest).llTouched = true ↔ _
    rw [ih]
    simp only [storeByte_llTouched, Bool.or_eq_true, Bool.and_eq_true, sameWord_iff, touchesLink, storeByte_llBit,
      storeByte_llAddr, List.length_cons]
    have e : ∀ k : Nat, a + 1#32 + BitVec.ofNat 32 k = a + BitVec.ofNat 32 (k + 1) := fun k => by
      rw [BitVec.ofNat_add, BitVec.add_assoc, BitVec.add_comm (BitVec.ofNat 32 k)]
    constructor
    · rintro ((h | h) | ⟨h1, k, hk, h2⟩)
      · exact .inl h
      · exact .inr ⟨h.1, 0, by omega, by simpa using h.2⟩
      · exact .inr ⟨h1, k + 1, by omega, by rw [← e]; exact h2⟩
    · rintro (h | ⟨h1, k, hk, h2⟩)
      · exact .inl (.inl h)
      · cases k with
        | zero => exact .inl (.inr ⟨h1, by simpa using h2⟩)
        | succ j => exact .inr ⟨h1, j, by omega, by rw [e]; exact h2⟩

theorem writesBytes_storeBytes (s : State) (a : Word) (bytes : List Byte) (h : bytes.length ≤ 2 ^ 32) :
    writesBytes s (s.storeBytes a bytes).advance a bytes := by
  refine ⟨bytesBecome_storeBytes s a bytes h, storeBytes_touched_iff s a bytes, ?_⟩
  conv_lhs => rw [storeBytes_frame]
  rfl

theorem wordBytes_eq (v : Word) : wordBytes v = bytesOf v := rfl

/-- The bytes of two stores, one after the other, are one store. -/
theorem storeBytes_append (s : State) (a : Word) (l m : List Byte) :
    s.storeBytes a (l ++ m) = (s.storeBytes a l).storeBytes (a + BitVec.ofNat 32 l.length) m := by
  induction l generalizing s a with
  | nil => simp [State.storeBytes]
  | cons b rest ih =>
    show (s.storeByte a b).storeBytes (a + 1#32) (rest ++ m) = _
    rw [ih]
    show _ = ((s.storeByte a b).storeBytes (a + 1#32) rest).storeBytes _ m
    congr 1
    rw [List.length_cons, BitVec.ofNat_add, BitVec.add_assoc, BitVec.add_comm 1#32]

theorem read32_eq (s : State) (a : Word) : s.read32 a = wordAt s a := rfl

/-! ### Exceptions -/

/-- What trap entry does, field by field (R395). -/
theorem enters_trapEntry (s : State) (c : ExcCode) (v : Option Word) : enters s (s.trapEntry c v) c.number v := by
  refine ⟨rfl, ?_, causeWith_code _ _ _, ?_, ?_, ?_, statusWithEl_true _, rfl, rfl, rfl, rfl, fun _ => rfl⟩
  · show (causeWith _ _ _).getLsbD 31 = _
    rw [causeWith_getLsbD _ _ _ _ (by omega), if_pos rfl]
  · intro k hk hk'
    show (causeWith _ _ _).getLsbD k = _
    rw [causeWith_getLsbD _ _ _ _ (by omega), if_neg (by omega), if_neg (by omega)]
  · rintro w rfl
    rfl
  · rintro rfl
    rfl

theorem completes_raise {i : Instr} {s : State} {c : ExcCode} (h : exec i s = s.raise c) :
    completes i s (fun t => enters s t c.number none) := ⟨_, h, enters_trapEntry s c none⟩

theorem completes_retire {i : Instr} {s u : State} {p : State → Prop} (h : exec i s = retire u) (hp : p u.advance) :
    completes i s p := ⟨_, h, hp⟩

/-- A data access, whole: what an instruction that makes one does in every case. -/
theorem accesses_of {i : Instr} {s u : State} {kind : AccessKind} {align : Nat} {a first : Word} {n : Nat}
    {p : State → Prop} (h : exec i s = s.access kind align a first n (retire u)) (hp : p u.advance) :
    accesses i s kind align a first n p := by
  refine ⟨fun h' => ⟨_, by rw [h, access_ok h']; rfl, hp⟩, fun h' => ?_, fun h1 h2 h3 => ?_⟩
  · refine ⟨_, by rw [h, access_addressError h']; rfl, ?_⟩
    have := enters_trapEntry s (addressError kind) (some a)
    cases kind <;> simpa [addressError, ExcCode.number] using this
  · exact ⟨_, by rw [h, access_busError h1 h2 h3]; rfl, enters_trapEntry s .dbe none⟩

/-! ### Small facts about words -/

theorem evenReg_iff (n : RegNum) : evenReg n = true ↔ n.getLsbD 0 = false := by simp [evenReg]

theorem alignedWord_eq (a : Word) : alignedWord a = a &&& ~~~3#32 := by
  refine BitVec.eq_of_getLsbD_eq fun i hi => ?_
  unfold alignedWord
  simp only [BitVec.getLsbD_append, BitVec.getLsbD_extractLsb', BitVec.getLsbD_and, BitVec.getLsbD_not]
  interval_cases i <;> simp

theorem byteInWord_eq (a : Word) : byteInWord a = (a &&& 3#32).toNat := by
  have e : a &&& 3#32 = (a.extractLsb' 0 2).zeroExtend 32 := by
    refine BitVec.eq_of_getLsbD_eq fun i hi => ?_
    simp only [BitVec.getLsbD_and, BitVec.zeroExtend, BitVec.getLsbD_setWidth, BitVec.getLsbD_extractLsb']
    interval_cases i <;> simp
  have h := (a.extractLsb' 0 2).isLt
  rw [e, BitVec.zeroExtend, BitVec.toNat_setWidth, byteInWord, Nat.mod_eq_of_lt (by omega)]

end Sys2Proof.Machine
end

