-- ==== Sys2Proof/Laws/Exec.lean ====
section
/-! SUPPORT. What an instruction can do to the state, said once for all instructions: which of them write more than
registers and program counters, and what each of those writes. -/

namespace Sys2Proof.Machine

/-- An effect on the registers and the program counters only. -/
def Plain (s t : State) : Prop :=
  ∃ g f p n d, t = { s with gpr := g, fpr := f, pc := p, npc := n, inDs := d } ∧ regRead g 0#5 = regRead s.gpr 0#5 ∧
    (d = false → n = p + 4#32) ∧ (d = true → p = s.npc ∧ s.inDs = false)

/-- An exception taken. -/
def Trapped (s t : State) : Prop := ∃ c v, t = s.trapEntry c v

/-- What stores change of the state: memory, the stored addresses and the mark of the linked word. -/
def Stored (s t : State) : Prop := ∃ a l, t = (s.storeBytes a l).advance

theorem gpr_setX_zero (s : State) (rd : RegNum) (v : Word) :
    regRead (s.setX rd v).gpr 0#5 = regRead s.gpr 0#5 := by
  unfold State.setX
  by_cases h : rd = 0#5
  · rw [if_pos h]
  · rw [if_neg h, regRead_regWrite, if_neg (fun e => h e.symm)]

theorem plain_advance (s : State) : Plain s s.advance :=
  ⟨s.gpr, s.fpr, _, _, _, rfl, rfl, fun _ => rfl, fun h => by cases h⟩

theorem plain_setX (s : State) (rd : RegNum) (v : Word) : Plain s (s.setX rd v).advance :=
  ⟨_, s.fpr, _, _, _, rfl, gpr_setX_zero s rd v, fun _ => rfl, fun h => by cases h⟩

theorem plain_setF (s : State) (fd : RegNum) (v : Word) : Plain s (s.setF fd v).advance :=
  ⟨s.gpr, _, _, _, _, rfl, rfl, fun _ => rfl, fun h => by cases h⟩

theorem plain_setFd64 (s : State) (fd : RegNum) (v : Dword) : Plain s (s.setFd64 fd v).advance :=
  ⟨s.gpr, _, _, _, _, rfl, rfl, fun _ => rfl, fun h => by cases h⟩

theorem plain_transfer {s : State} (taken : Bool) (target : Word) (h : s.inDs = false) :
    Plain s (s.transfer taken target) :=
  ⟨s.gpr, s.fpr, _, _, _, rfl, rfl, fun h => (by cases h), fun _ => ⟨rfl, h⟩⟩

theorem plain_link {s : State} (rd : RegNum) (v : Word) (taken : Bool) (target : Word) (h : s.inDs = false) :
    Plain s ((s.setX rd v).transfer taken target) :=
  ⟨_, s.fpr, _, _, _, rfl, gpr_setX_zero s rd v, fun h => (by cases h), fun _ => ⟨rfl, h⟩⟩

theorem trapped_raise {s t : State} {c : ExcCode} (h : s.raise c = .next t) : Trapped s t :=
  ⟨c, none, raise_next.1 h⟩

/-- What an instruction that answers a next state did. -/
def Effect (i : Instr) (s t : State) : Prop :=
  match i with
  | .mult _ _ | .multu _ _ | .div _ _ | .divu _ _ => ∃ hi lo, t = ((s.setHi hi).setLo lo).advance
  | .mthi _ => ∃ v, t = (s.setHi v).advance
  | .mtlo _ => ∃ v, t = (s.setLo v).advance
  | .cFS _ _ | .cFD _ _ | .cUnS _ _ | .cUnD _ _ | .cEqS _ _ | .cEqD _ _ | .cUeqS _ _ | .cUeqD _ _ | .cOltS _ _
  | .cOltD _ _ | .cUltS _ _ | .cUltD _ _ | .cOleS _ _ | .cOleD _ _ | .cUleS _ _ | .cUleD _ _ | .cSfS _ _ | .cSfD _ _
  | .cNgleS _ _ | .cNgleD _ _ | .cSeqS _ _ | .cSeqD _ _ | .cNglS _ _ | .cNglD _ _ | .cLtS _ _ | .cLtD _ _
  | .cNgeS _ _ | .cNgeD _ _ | .cLeS _ _ | .cLeD _ _ | .cNgtS _ _ | .cNgtD _ _ => ∃ b, t = (s.setFpcond b).advance
  | .sb _ _ _ | .sh _ _ _ | .sw _ _ _ | .swl _ _ _ | .swr _ _ _ | .swc1 _ _ _ | .sdc1 _ _ _ => Trapped s t ∨ Stored s t
  | .ll rt _ _ => Trapped s t ∨ ∃ v a, a &&& 3#32 = 0#32 ∧ t = ((s.setX rt v).setLink a).advance
  | .sc rt _ _ => Trapped s t ∨ (∃ a l v, t = (((s.storeBytes a l).setX rt v).clearLink).advance)
  | .eret => (s.userMode = true ∧ Trapped s t) ∨ (s.userMode = false ∧ s.inDs = false ∧ t = s.exceptionReturn)
  | .mtc0 _ _ => (s.userMode = true ∧ Trapped s t) ∨ (s.userMode = false ∧ (t = s.advance ∨
      (∃ v, t = { s with status := writeMasked statusMask s.status v }.advance) ∨
      (∃ v, t = { s with cause := writeMasked causeMask s.cause v }.advance) ∨ ∃ v, t = { s with epc := v }.advance))
  | _ => Plain s t ∨ Trapped s t

theorem plain_of_retire {s t u : State} (h : retire u = .next t) (hu : Plain s u.advance) : Plain s t ∨ Trapped s t :=
  .inl (retire_next.1 h ▸ hu)

theorem plain_of_kernelOnly {s t u : State} (h : s.kernelOnly (retire u) = .next t) (hu : Plain s u.advance) :
    Plain s t ∨ Trapped s t := by
  obtain ⟨-, h⟩ | ⟨-, h⟩ := kernelOnly_next h
  · exact .inr ⟨_, _, h⟩
  · exact plain_of_retire h hu

theorem plain_of_ite {s t u v : State} {c : Prop} [Decidable c] (h : retire (if c then u else v) = .next t)
    (hu : Plain s u.advance) (hv : Plain s v.advance) : Plain s t ∨ Trapped s t := by
  split at h
  · exact plain_of_retire h hu
  · exact plain_of_retire h hv

theorem aligned_iff {a : Word} : a.toNat % 4 = 0 ↔ a &&& 3#32 = 0#32 := by
  rw [← BitVec.toNat_inj, BitVec.toNat_and]
  change _ ↔ a.toNat &&& (2 ^ 2 - 1) = 0
  rw [Nat.and_two_pow_sub_one_eq_mod]

theorem plain_of_access {s t u : State} {kind : AccessKind} {align : Nat} {a first : Word} {n : Nat}
    (h : s.access kind align a first n (retire u) = .next t) (hu : Plain s u.advance) : Plain s t ∨ Trapped s t := by
  obtain ⟨-, h⟩ | ⟨-, h⟩ | ⟨-, h⟩ := access_next h
  · exact .inl (retire_next.1 h ▸ hu)
  · exact .inr ⟨_, _, h⟩
  · exact .inr ⟨_, _, h⟩

theorem stored_of_access {s t : State} {kind : AccessKind} {align : Nat} {a first : Word} {n : Nat} {b : Word}
    {l : List Byte} (h : s.access kind align a first n (retire (s.storeBytes b l)) = .next t) :
    Trapped s t ∨ Stored s t := by
  obtain ⟨-, h⟩ | ⟨-, h⟩ | ⟨-, h⟩ := access_next h
  · exact .inr ⟨b, l, retire_next.1 h⟩
  · exact .inl ⟨_, _, h⟩
  · exact .inl ⟨_, _, h⟩

theorem plain_of_overflowing {s t : State} {rd : RegNum} {r : Option Word} (h : overflowing rd r s = .next t) :
    Plain s t ∨ Trapped s t := by
  obtain ⟨-, h⟩ | ⟨v, -, h⟩ := overflowing_next h
  · exact .inr ⟨_, _, h⟩
  · exact .inl (h ▸ plain_setX ..)

theorem plain_of_trapIf {s t : State} {c : Bool} (h : s.trapIf c = .next t) : Plain s t ∨ Trapped s t := by
  obtain ⟨-, h⟩ | ⟨-, h⟩ := trapIf_next h
  · exact .inr ⟨_, _, h⟩
  · exact .inl (h ▸ plain_advance s)

theorem plain_of_branch {s t : State} {k : Bool} {w : Word} (h : s.branch k w = .next t) : Plain s t ∨ Trapped s t := by
  obtain ⟨hd, h⟩ := branch_next h
  exact .inl (h ▸ plain_transfer k w hd)

theorem plain_of_link {s t : State} {rd : RegNum} {v w : Word} {k : Bool} (h : (s.setX rd v).branch k w = .next t) :
    Plain s t ∨ Trapped s t := by
  obtain ⟨hd, h⟩ := branch_next h
  exact .inl (h ▸ plain_link rd v k w hd)

/-- Every instruction does what `Effect` says of it. -/
theorem exec_effect {i : Instr} {s t : State} (h : exec i s = .next t) : Effect i s t := by
  cases i
  case add | addi | sub => exact plain_of_overflowing h
  case addiu | addu | and | andi | lui | nor | or | ori | slt | slti | sltiu | sltu | sll | srl | subu | sra | xor |
      xori | sllv | srlv | srav | mfhi | mflo =>
    exact plain_of_retire h (plain_setX ..)
  case movz => exact plain_of_ite h (plain_setX ..) (plain_advance s)
  case movn => exact plain_of_ite h (plain_advance s) (plain_setX ..)
  case beq | bne | j | jr | blez | bgtz | bc1t | bc1f => exact plain_of_branch h
  case jal => exact plain_of_link h
  case jalr =>
    rename_i rd rs
    change (if s.inDs then _ else if linkAllowed rd rs then _ else _) = _ at h
    split at h
    · cases h
    · split at h
      · exact plain_of_link h
      · cases h
  case lbu | lhu | lw | lb | lh | lwl | lwr => exact plain_of_access h (plain_setX ..)
  case ll =>
    obtain ⟨⟨ha, -, -⟩, h⟩ | ⟨-, h⟩ | ⟨-, h⟩ := access_next h
    · exact .inr ⟨_, _, aligned_iff.1 ha, retire_next.1 h⟩
    · exact .inl ⟨_, _, h⟩
    · exact .inl ⟨_, _, h⟩
  case sb | sh | sw | swl | swr | swc1 => exact stored_of_access h
  case sc =>
    obtain ⟨-, h⟩ | ⟨-, h⟩ | ⟨-, h⟩ := access_next h
    · obtain ⟨-, -, -, h⟩ | ⟨-, h⟩ := storeConditional_next h
      · exact .inr ⟨_, _, _, h⟩
      · exact .inr ⟨0#32, [], _, h⟩
    · exact .inl ⟨_, _, h⟩
    · exact .inl ⟨_, _, h⟩
  case div =>
    rename_i rs rt
    change retire (if s.x rt = 0#32 then _ else _) = _ at h
    split at h
    · exact ⟨_, _, retire_next.1 h⟩
    · exact ⟨_, _, retire_next.1 h⟩
  case divu =>
    rename_i rs rt
    change retire (if s.x rt = 0#32 then _ else _) = _ at h
    split at h
    · exact ⟨_, _, retire_next.1 h⟩
    · exact ⟨_, _, retire_next.1 h⟩
  case mult | multu => exact ⟨_, _, retire_next.1 h⟩
  case mthi | mtlo | cFS | cUnS | cEqS | cUeqS | cOltS | cUltS | cOleS | cUleS | cSfS | cNgleS | cSeqS | cNglS |
      cLtS | cNgeS | cLeS | cNgtS =>
    exact ⟨_, retire_next.1 h⟩
  case addS | subS | mulS | divS | sqrtS | absS | movS | negS | roundWS | truncWS | ceilWS | floorWS | cvtWS =>
    exact plain_of_retire h (plain_setF ..)
  case addD | subD | mulD | divD | sqrtD | absD | movD | negD | cvtDS =>
    exact plain_of_retire (withDoubles_next h).2 (plain_setFd64 ..)
  case roundWD | truncWD | ceilWD | floorWD | cvtSD | cvtWD =>
    exact plain_of_retire (withDoubles_next h).2 (plain_setF ..)
  case movzS => exact plain_of_ite h (plain_setF ..) (plain_advance s)
  case movzD => exact plain_of_ite (withDoubles_next h).2 (plain_setFd64 ..) (plain_advance s)
  case movnS => exact plain_of_ite h (plain_advance s) (plain_setF ..)
  case movnD => exact plain_of_ite (withDoubles_next h).2 (plain_advance s) (plain_setFd64 ..)
  case cvtSS => cases h
  case cvtDD => cases h
  case cFD | cUnD | cEqD | cUeqD | cOltD | cUltD | cOleD | cUleD | cSfD | cNgleD | cSeqD | cNglD | cLtD | cNgeD |
      cLeD | cNgtD =>
    exact ⟨_, retire_next.1 (withDoubles_next h).2⟩
  case lwc1 => exact plain_of_access h (plain_setF ..)
  case ldc1 => exact plain_of_access (withDoubles_next h).2 (plain_setFd64 ..)
  case sdc1 =>
    obtain ⟨-, h⟩ | ⟨-, h⟩ | ⟨-, h⟩ := access_next (withDoubles_next h).2
    · exact .inr ⟨_, _, (retire_next.1 h).trans (congrArg State.advance (storeBytes_append s _ (bytesOf _) _).symm)⟩
    · exact .inl ⟨_, _, h⟩
    · exact .inl ⟨_, _, h⟩
  case mfc0 =>
    rename_i rt rd
    change s.readControl rd (fun v => s.kernelOnly (retire (s.setX rt v))) = _ at h
    obtain ⟨v, h⟩ := readControl_next h
    exact plain_of_kernelOnly h (plain_setX ..)
  case mtc0 =>
    rename_i rt rd
    change s.writeControl rd (s.x rt) (fun u => s.kernelOnly (retire u)) = _ at h
    obtain ⟨u, h, e⟩ := writeControl_next h
    obtain ⟨hu, h⟩ | ⟨hu, h⟩ := kernelOnly_next h
    · exact .inl ⟨hu, _, _, h⟩
    · refine .inr ⟨hu, ?_⟩
      rw [retire_next.1 h]
      obtain rfl | rfl | rfl | rfl := e
      · exact .inl rfl
      · exact .inr (.inl ⟨_, rfl⟩)
      · exact .inr (.inr (.inl ⟨_, rfl⟩))
      · exact .inr (.inr (.inr ⟨_, rfl⟩))
  case eret =>
    change (if s.inDs = true then _ else _) = _ at h
    split at h
    · cases h
    · rename_i hd
      obtain ⟨hu, h⟩ | ⟨hu, h⟩ := kernelOnly_next h
      · exact .inl ⟨hu, _, _, h⟩
      · exact .inr ⟨hu, by simpa using hd, by simpa using h.symm⟩
  case syscall | brk | lwc2 | ldc2 | swc2 | sdc2 => exact .inr (trapped_raise h)
  case sync | pref => exact plain_of_retire h (plain_advance ..)
  case tge | tgeu | tlt | tltu | teq | tne => exact plain_of_trapIf h
  case cache => exact plain_of_kernelOnly h (plain_advance s)

end Sys2Proof.Machine
end

