-- ==== Sys2Proof/Laws/Fp.lean ====
section
/-! SUPPORT. What each operation of the floating-point arithmetic computes, said once over the real numbers: the rounding
function, the square root, the arithmetic on values, the conversions and the comparison. -/

namespace Sys2Proof.Machine

/-! ### Rounding -/

theorem log_eq_of_bounds {r : ℝ} {k : ℤ} (h1 : (2 : ℝ) ^ k ≤ r) (h2 : r < (2 : ℝ) ^ (k + 1)) : Int.log 2 r = k := by
  have hr : 0 < r := lt_of_lt_of_le (by positivity) h1
  refine le_antisymm ?_ ?_
  · have := (Int.lt_zpow_iff_log_lt (b := 2) (by norm_num) hr (x := k + 1)).1 (by exact_mod_cast h2)
    omega
  · exact (Int.zpow_le_iff_le_log (b := 2) (by norm_num) hr).1 (by exact_mod_cast h1)

theorem zpow_split (k : ℤ) : (2 : ℝ) ^ k = (2 : ℝ) ^ k.toNat / (2 : ℝ) ^ (-k).toNat := by
  rcases le_total 0 k with h | h
  · rw [show (-k).toNat = 0 by omega, pow_zero, div_one, ← zpow_natCast, Int.toNat_of_nonneg h]
  · rw [show k.toNat = 0 by omega, pow_zero, one_div, ← zpow_natCast, Int.toNat_of_nonneg (by omega), zpow_neg, inv_inv]

/-- The exponent of R253. -/
theorem floorLog2_spec {n d : Nat} (hn : 0 < n) (hd : 0 < d) : Int.log 2 ((n : ℝ) / d) = floorLog2 n d := by
  have hn' : (0 : ℝ) < n := by exact_mod_cast hn
  have hd' : (0 : ℝ) < d := by exact_mod_cast hd
  have n1 : (2 : ℝ) ^ Nat.log2 n ≤ n := by exact_mod_cast Nat.log2_self_le hn.ne'
  have n2 : (n : ℝ) < (2 : ℝ) ^ (Nat.log2 n + 1) := by exact_mod_cast Nat.lt_log2_self
  have d1 : (2 : ℝ) ^ Nat.log2 d ≤ d := by exact_mod_cast Nat.log2_self_le hd.ne'
  have d2 : (d : ℝ) < (2 : ℝ) ^ (Nat.log2 d + 1) := by exact_mod_cast Nat.lt_log2_self
  generalize hk : (Nat.log2 n : ℤ) - Nat.log2 d = k
  have hk' : (2 : ℝ) ^ k = (2 : ℝ) ^ Nat.log2 n / (2 : ℝ) ^ Nat.log2 d := by
    rw [← hk, zpow_sub₀ (by norm_num), zpow_natCast, zpow_natCast]
  have p1 : (0 : ℝ) < (2 : ℝ) ^ Nat.log2 n := by positivity
  have p2 : (0 : ℝ) < (2 : ℝ) ^ Nat.log2 d := by positivity
  have key : d * 2 ^ k.toNat ≤ n * 2 ^ (-k).toNat ↔ (2 : ℝ) ^ k ≤ (n : ℝ) / d := by
    rw [zpow_split, div_le_div_iff₀ (by positivity) hd', ← Nat.cast_le (α := ℝ)]
    push_cast
    rw [mul_comm]
  unfold floorLog2
  simp only [hk]
  split
  · rename_i h
    refine log_eq_of_bounds (key.1 h) ?_
    rw [zpow_add_one₀ (by norm_num), hk', div_lt_iff₀ hd', div_mul_eq_mul_div, div_mul_eq_mul_div, lt_div_iff₀ p2]
    rw [pow_succ] at n2
    nlinarith
  · rename_i h
    refine log_eq_of_bounds ?_ ?_
    · rw [zpow_sub_one₀ (by norm_num), hk', le_div_iff₀ hd', ← div_eq_mul_inv, div_div, div_mul_eq_mul_div, div_le_iff₀ (by positivity)]
      rw [pow_succ] at d2
      nlinarith
    · rw [sub_add_cancel]
      exact not_le.1 (mt key.2 h)

/-- The integer of R253: to nearest, ties to even. -/
theorem roundNearestEven_spec {n d : Nat} (hd : 0 < d) :
    isNearestEven ((n : ℝ) / d) ((roundNearestEven n d : Nat) : ℤ) := by
  have hd' : (0 : ℝ) < d := by exact_mod_cast hd
  have hdiv : (n : ℝ) = d * (n / d : Nat) + (n % d : Nat) := by exact_mod_cast (Nat.div_add_mod n d).symm
  have hq : (n : ℝ) / d = (n / d : Nat) + (n % d : Nat) / d := by
    conv_lhs => rw [hdiv]
    field_simp
  have hr : (n % d : Nat) < d := Nat.mod_lt _ hd
  have hr' : ((n % d : Nat) : ℝ) < d := by exact_mod_cast hr
  have hr0 : (0 : ℝ) ≤ ((n % d : Nat) : ℝ) := by positivity
  generalize hQ : n / d = Q at *
  generalize hR : n % d = R at *
  have e1 : (Q : ℝ) + (R : ℝ) / d - Q = (R : ℝ) / d := by ring
  have e2 : (Q : ℝ) + (R : ℝ) / d - (Q + 1) = -((d - R) / d) := by field_simp; ring
  unfold roundNearestEven isNearestEven
  simp only [hQ, hR, hq]
  split
  · rename_i h
    simp only [Bool.or_eq_true, decide_eq_true_eq, Bool.and_eq_true, beq_iff_eq] at h
    push_cast
    rw [e2, abs_neg, abs_of_nonneg (by apply div_nonneg <;> linarith)]
    rcases h with h | ⟨h, h'⟩
    · have hh : (d : ℝ) < 2 * R := by exact_mod_cast h
      have : (d - R : ℝ) / d < 1 / 2 := by rw [div_lt_div_iff₀ hd' (by norm_num)]; linarith
      exact ⟨this.le, fun h => absurd h this.ne⟩
    · have hh : (2 * R : ℝ) = d := by exact_mod_cast h
      refine ⟨le_of_eq ?_, fun _ => ?_⟩
      · rw [div_eq_div_iff hd'.ne' (by norm_num)]; linarith
      · rw [← Nat.cast_one, ← Nat.cast_add, Int.even_coe_nat]
        exact Nat.even_iff.2 (by omega)
  · rename_i h
    simp only [Bool.or_eq_true, decide_eq_true_eq, Bool.and_eq_true, beq_iff_eq, not_or, not_and] at h
    push_cast
    rw [e1, abs_of_nonneg (by positivity)]
    have hh : (2 * R : ℝ) ≤ d := by exact_mod_cast (by omega : 2 * R ≤ d)
    refine ⟨by rw [div_le_div_iff₀ hd' (by norm_num)]; linarith, fun he => ?_⟩
    rw [div_eq_div_iff hd'.ne' (by norm_num)] at he
    have : 2 * R = d := by
      have : (2 * R : ℝ) = d := by linarith
      exact_mod_cast this
    exact (Int.even_coe_nat _).2 (Nat.even_iff.2 (by have := h.2 this; omega))

theorem scaled_div (n d : Nat) (hd : 0 < d) (k : ℤ) :
    ((n * 2 ^ (-k).toNat : Nat) : ℝ) / (d * 2 ^ k.toNat : Nat) = (n : ℝ) / d / (2 : ℝ) ^ k := by
  have hd' : (0 : ℝ) < d := by exact_mod_cast hd
  rw [zpow_split]
  push_cast
  field_simp

theorem roundFinish_spec {fmt : FpFormat} {neg : Bool} {m : Nat} {e : ℤ} (he : emin fmt ≤ e) :
    isRoundedPattern fmt neg m e (roundFinish fmt neg m e) := by
  unfold isRoundedPattern roundFinish
  split
  · rfl
  · split
    · rfl
    · refine ⟨_, Int.toNat_of_nonneg ?_, rfl⟩
      unfold emin at he
      omega

/-- `round_fmt` of a signed quotient (R253). -/
theorem roundMagnitude_rounds {fmt : FpFormat} {neg : Bool} {n d : Nat} {zs : Bool} (hn : 0 < n) (hd : 0 < d) :
    rounds fmt ((if neg then -1 else 1) * ((n : ℝ) / d)) zs (roundMagnitude fmt neg n d) := by
  have hv : (0 : ℝ) < (n : ℝ) / d := by positivity
  have habs : |(if neg then -1 else 1) * ((n : ℝ) / d)| = (n : ℝ) / d := by
    cases neg <;> simp [abs_of_pos hv]
  have hsign : decide ((if neg then -1 else 1) * ((n : ℝ) / d) < 0) = neg := by
    cases neg <;> simp [hn, hd, hv.le]
  refine ⟨fun h => ?_, fun _ => ⟨roundExponent fmt n d, roundMantissa fmt n d, ?_, ?_, ?_, ?_⟩⟩
  · rw [← abs_eq_zero, habs] at h
    exact absurd h hv.ne'
  · rw [habs, floorLog2_spec hn hd]; rfl
  · rw [habs, ← scaled_div n d hd]
    exact roundNearestEven_spec (by positivity)
  all_goals
    intro h
    rw [hsign]
    unfold roundMagnitude
    simp only [h, if_true, if_false]
    apply roundFinish_spec
    have : emin fmt ≤ roundExponent fmt n d := le_max_right _ _
    omega

/-- `round_fmt` of an integer times a power of two (R253). -/
theorem roundScaled_rounds {fmt : FpFormat} {m e : ℤ} {zs : Bool} :
    rounds fmt ((m : ℝ) * (2 : ℝ) ^ e) zs (roundScaled fmt m e zs) := by
  unfold roundScaled
  split
  · rename_i h
    subst h
    refine ⟨fun _ => rfl, fun h => absurd (by simp) h⟩
  · rename_i h
    have := roundMagnitude_rounds (fmt := fmt) (neg := decide (m < 0)) (n := m.natAbs * 2 ^ e.toNat) (d := 2 ^ (-e).toNat)
      (zs := zs) (by have := Int.natAbs_pos.2 h; positivity) (by positivity)
    convert this using 1
    rw [zpow_split]
    push_cast
    have : ((m.natAbs : ℕ) : ℝ) = |(m : ℝ)| := by simp [Nat.cast_natAbs]
    rw [this]
    by_cases hm : m < 0
    · have : (m : ℝ) < 0 := by exact_mod_cast hm
      simp [hm, abs_of_neg this]; ring
    · have : (0 : ℝ) ≤ m := by exact_mod_cast not_lt.1 hm
      simp [hm, abs_of_nonneg this]; ring

/-! ### The square root -/

theorem sqrtBits_spec (n i r : Nat) (h1 : r * r ≤ n) (h2 : n < (r + 2 ^ i) * (r + 2 ^ i)) :
    sqrtBits n i r * sqrtBits n i r ≤ n ∧ n < (sqrtBits n i r + 1) * (sqrtBits n i r + 1) := by
  induction i generalizing r with
  | zero => exact ⟨h1, by simpa [sqrtBits] using h2⟩
  | succ i ih =>
    unfold sqrtBits
    split
    · rename_i h
      refine ih _ h ?_
      rw [add_assoc, ← two_mul, ← Nat.pow_succ']
      exact h2
    · rename_i h
      exact ih _ h1 (by omega)

/-- The integer square root (log entry 26). -/
theorem natSqrt_spec (n : Nat) : natSqrt n * natSqrt n ≤ n ∧ n < (natSqrt n + 1) * (natSqrt n + 1) := by
  refine sqrtBits_spec n _ 0 (Nat.zero_le _) ?_
  rw [Nat.zero_add, ← Nat.pow_add]
  refine lt_of_lt_of_le Nat.lt_log2_self (Nat.pow_le_pow_right (by norm_num) (by omega))

/-- Two numbers in one open unit interval round to the same integers when the places where rounding changes are
integers. -/
theorem isNearestEven_of_between {x y : ℝ} {r c : ℤ} (hc : 0 < c) (hx1 : (r : ℝ) < x) (hx2 : x < r + 1) (hy1 : (r : ℝ) < y)
    (hy2 : y < r + 1) (m : ℤ) (h : isNearestEven (y / (2 * c)) m) : isNearestEven (x / (2 * c)) m := by
  have hc' : (0 : ℝ) < c := by exact_mod_cast hc
  have tr : ∀ t : ℤ, (y ≤ t → x < t) ∧ ((t : ℝ) ≤ y → (t : ℝ) < x) := by
    intro t
    constructor
    · intro h
      have : (r : ℝ) < t := lt_of_lt_of_le hy1 h
      have : r < t := by exact_mod_cast this
      have : (r : ℝ) + 1 ≤ t := by exact_mod_cast this
      linarith
    · intro h
      have : (t : ℝ) < r + 1 := lt_of_le_of_lt h hy2
      have : t < r + 1 := by exact_mod_cast this
      have : (t : ℝ) ≤ r := by exact_mod_cast Int.lt_add_one_iff.1 this
      linarith
  obtain ⟨h1, -⟩ := h
  rw [abs_le] at h1
  have a1 : ((2 * m - 1) * c : ℤ) ≤ y := by
    have := h1.1
    rw [le_sub_iff_add_le, le_div_iff₀ (by positivity)] at this
    push_cast; linarith
  have a2 : y ≤ ((2 * m + 1) * c : ℤ) := by
    have := h1.2
    rw [sub_le_iff_le_add, div_le_iff₀ (by positivity)] at this
    push_cast; linarith
  have b1 := (tr _).2 a1
  have b2 := (tr _).1 a2
  push_cast at b1 b2
  have : |x / (2 * c) - m| < 1 / 2 := by
    rw [abs_lt]
    constructor
    · rw [lt_sub_iff_add_lt, lt_div_iff₀ (by positivity)]; linarith
    · rw [sub_lt_iff_lt_add, div_lt_iff₀ (by positivity)]; linarith
  exact ⟨this.le, fun h => absurd h this.ne⟩

/-- Rounding cannot tell two numbers apart that lie between neighbouring multiples of a unit fine enough. -/
theorem rounds_of_between {fmt : FpFormat} {x y : ℝ} {r : Nat} {j : ℤ} {zs : Bool} {w : Nat}
    (hr : 2 ^ (fracBits fmt + 3) ≤ r) (hx1 : (r : ℝ) < x) (hx2 : x < r + 1) (hy1 : (r : ℝ) < y) (hy2 : y < r + 1)
    (h : rounds fmt (y * (2 : ℝ) ^ j) zs w) : rounds fmt (x * (2 : ℝ) ^ j) zs w := by
  have hj : (0 : ℝ) < (2 : ℝ) ^ j := by positivity
  have hr0 : (0 : ℝ) ≤ r := by positivity
  have hrpos : r ≠ 0 := by have : 0 < 2 ^ (fracBits fmt + 3) := by positivity
                           omega
  have hlog : ∀ z : ℝ, (r : ℝ) < z → z < r + 1 → Int.log 2 (z * (2 : ℝ) ^ j) = Nat.log2 r + j := by
    intro z h1 h2
    apply log_eq_of_bounds
    · rw [zpow_add₀ (by norm_num), zpow_natCast]
      have : (2 : ℝ) ^ Nat.log2 r ≤ r := by exact_mod_cast Nat.log2_self_le hrpos
      exact mul_le_mul_of_nonneg_right (by linarith) hj.le
    · rw [show (Nat.log2 r : ℤ) + j + 1 = ((Nat.log2 r + 1 : Nat) : ℤ) + j by push_cast; ring, zpow_add₀ (by norm_num),
        zpow_natCast]
      have : (r : ℝ) + 1 ≤ (2 : ℝ) ^ (Nat.log2 r + 1) := by exact_mod_cast Nat.lt_log2_self (n := r)
      exact mul_lt_mul_of_pos_right (by linarith) hj
  have hx0 : 0 < x * (2 : ℝ) ^ j := mul_pos (by linarith) hj
  have hy0 : 0 < y * (2 : ℝ) ^ j := mul_pos (by linarith) hj
  obtain ⟨-, h⟩ := h
  obtain ⟨e, m, he, hm, h1, h2⟩ := h hy0.ne'
  refine ⟨fun h => absurd h hx0.ne', fun _ => ⟨e, m, ?_, ?_, ?_, ?_⟩⟩
  · rw [abs_of_pos hx0, hlog x hx1 hx2]
    rwa [abs_of_pos hy0, hlog y hy1 hy2] at he
  · rw [abs_of_pos hy0, hlog y hy1 hy2] at he
    rw [abs_of_pos hy0] at hm
    rw [abs_of_pos hx0]
    have hlr : fracBits fmt + 3 ≤ Nat.log2 r := (Nat.le_log2 hrpos).2 hr
    have hle : (Nat.log2 r : ℤ) + j ≤ e := he ▸ le_max_left _ _
    obtain ⟨i, hi⟩ : ∃ i : Nat, e - fracBits fmt - j - 1 = i := ⟨_, (Int.toNat_of_nonneg (by omega)).symm⟩
    have hz : ∀ z : ℝ, z * (2 : ℝ) ^ j / (2 : ℝ) ^ (e - fracBits fmt) = z / (2 * ((2 ^ i : ℤ) : ℝ)) := by
      intro z
      rw [show e - (fracBits fmt : ℤ) = 1 + i + j by omega, zpow_add₀ (by norm_num), zpow_add₀ (by norm_num), zpow_natCast,
        zpow_one]
      push_cast
      field_simp
    rw [hz] at hm ⊢
    exact isNearestEven_of_between (r := r) (by positivity) (by exact_mod_cast hx1) (by exact_mod_cast hx2)
      (by exact_mod_cast hy1) (by exact_mod_cast hy2) _ hm
  · have e1 : decide (x * (2 : ℝ) ^ j < 0) = decide (y * (2 : ℝ) ^ j < 0) := by
      simp only [not_lt.2 hx0.le, not_lt.2 hy0.le]
    rw [e1]; exact h1
  · have e1 : decide (x * (2 : ℝ) ^ j < 0) = decide (y * (2 : ℝ) ^ j < 0) := by
      simp only [not_lt.2 hx0.le, not_lt.2 hy0.le]
    rw [e1]; exact h2

/-- The square root is the exact one, rounded (R263; log entry 26). -/
theorem sqrtMagnitude_rounds {fmt : FpFormat} {m : Nat} {e : ℤ} (hm : 0 < m) :
    rounds fmt (Real.sqrt ((m : ℝ) * (2 : ℝ) ^ e)) false (sqrtMagnitude fmt m e) := by
  have hodd : 0 ≤ e % 2 ∧ e % 2 < 2 := by omega
  obtain ⟨g, hg⟩ : ∃ g : Nat, e % 2 = g := ⟨_, (Int.toNat_of_nonneg hodd.1).symm⟩
  obtain ⟨half, hhalf⟩ : ∃ half : ℤ, e = 2 * half + g := ⟨e / 2, by omega⟩
  have hh : (e - g) / 2 = half := by omega
  unfold sqrtMagnitude
  simp only [hg, hh, Int.toNat_natCast]
  generalize hk : fracBits fmt + 3 = k
  generalize hS : m * 2 ^ g * 4 ^ k = S
  obtain ⟨s1, s2⟩ := natSqrt_spec S
  generalize natSqrt S = r at *
  have hS' : (S : ℝ) = (m : ℝ) * 2 ^ g * 4 ^ k := by rw [← hS]; push_cast; ring
  have hroot : Real.sqrt ((m : ℝ) * (2 : ℝ) ^ e) = Real.sqrt S * (2 : ℝ) ^ (half - k) := by
    have : (m : ℝ) * (2 : ℝ) ^ e = S * ((2 : ℝ) ^ (half - k)) ^ 2 := by
      rw [hS', hhalf, zpow_add₀ (by norm_num), zpow_natCast, zpow_sub₀ (by norm_num), div_pow, zpow_natCast, zpow_mul,
        zpow_ofNat, show (4 : ℝ) = 2 ^ 2 by norm_num, ← pow_mul, mul_comm 2 k, pow_mul]
      rw [← zpow_ofNat, ← zpow_mul, mul_comm 2 half, zpow_mul, zpow_ofNat]
      field_simp
    rw [this, Real.sqrt_mul (by positivity), Real.sqrt_sq (by positivity)]
  have hz : (2 : ℝ) ^ (half - k) = 2 * (2 : ℝ) ^ (half - k - 1) := by
    rw [zpow_sub_one₀ (by norm_num)]; ring
  rw [hroot]
  have r1 : (r : ℝ) ≤ Real.sqrt S := Real.le_sqrt_of_sq_le (by rw [sq]; exact_mod_cast s1)
  have r2 : Real.sqrt S < r + 1 := by
    rw [Real.sqrt_lt' (by positivity), sq]; exact_mod_cast s2
  by_cases hex : r * r = S
  · rw [if_pos hex]
    have : Real.sqrt S = r := by
      rw [← hex]; push_cast; exact Real.sqrt_mul_self (by positivity)
    rw [this, hz]
    have := roundScaled_rounds (fmt := fmt) (m := (2 * r + 0 : Nat)) (e := half - k - 1) (zs := false)
    convert this using 1
    push_cast; ring
  · rw [if_neg hex]
    have := roundScaled_rounds (fmt := fmt) (m := (2 * r + 1 : Nat)) (e := half - k - 1) (zs := false)
    rw [show (((2 * r + 1 : Nat) : ℤ) : ℝ) * (2 : ℝ) ^ (half - k - 1) = (r + 1 / 2 : ℝ) * (2 : ℝ) ^ (half - k) by
      rw [hz]; push_cast; ring] at this
    have hlow : 2 ^ k ≤ r := by
      by_contra hc
      have hc' : r + 1 ≤ 2 ^ k := by omega
      have hle : (r + 1) * (r + 1) ≤ 2 ^ k * 2 ^ k := Nat.mul_le_mul hc' hc'
      have h4 : 2 ^ k * 2 ^ k = 4 ^ k := by rw [← Nat.mul_pow]
      have h5 : 4 ^ k ≤ S := by
        rw [← hS]
        exact Nat.le_mul_of_pos_left _ (by positivity)
      omega
    refine rounds_of_between (r := r) (y := (r : ℝ) + 1 / 2) (by rw [hk]; exact hlow) ?_ r2 (by linarith) (by linarith) this
    refine lt_of_le_of_ne r1 fun h => hex ?_
    have : (r : ℝ) * r = S := by
      conv_lhs => rw [h]
      exact Real.mul_self_sqrt (by positivity)
    exact_mod_cast this

/-! ### Patterns -/

theorem fpPack_lt {fmt : FpFormat} {neg : Bool} {e f : Nat} (he : e ≤ maxExp fmt) (hf : f < 2 ^ fracBits fmt) :
    fpPack fmt neg e f < 2 ^ (1 + expBits fmt + fracBits fmt) := by
  cases fmt <;> cases neg <;> simp [fpPack, maxExp, expBits, fracBits] at * <;> omega

theorem maxExp_eq (fmt : FpFormat) : (maxExp fmt : ℤ) = 2 * bias fmt + 1 := by cases fmt <;> decide

theorem isNaNPattern_fpNaNPattern (fmt : FpFormat) (neg : Bool) (n : Nat) :
    isNaNPattern fmt (fpNaNPattern fmt neg n) := by
  cases fmt <;> cases neg <;>
    simp [isNaNPattern, fpNaNPattern, fpPack, fpExpField, fpFracField, maxExp, expBits, fracBits] <;> omega

theorem drawnNaN_isNaN (s : State) (op : FpOp) (fmt : FpFormat) (operands : List Dword) :
    isNaNPattern fmt (fpNaNPattern fmt (Config.fpNaN s.time op fmt operands).1 (Config.fpNaN s.time op fmt operands).2) :=
  isNaNPattern_fpNaNPattern ..

/-- The pattern of a number that fits its fields, or of an infinity, has the width of the format. -/
theorem isRoundedPattern_lt {fmt : FpFormat} {neg : Bool} {m : Nat} {e : ℤ} {w : Nat}
    (hm : m < 2 ^ (fracBits fmt + 1)) (h : isRoundedPattern fmt neg m e w) :
    w < 2 ^ (1 + expBits fmt + fracBits fmt) := by
  have hmax := maxExp_eq fmt
  unfold isRoundedPattern at h
  split at h
  · rw [h]; exact fpPack_lt le_rfl (by positivity)
  · rename_i hb
    split at h
    · rw [h]; exact fpPack_lt (Nat.zero_le _) ‹_›
    · obtain ⟨f, hf, rfl⟩ := h
      refine fpPack_lt (by omega) ?_
      rw [pow_succ] at hm
      omega

theorem mantissa_le {fmt : FpFormat} {v : ℝ} {e : ℤ} {m : Nat} (he : Int.log 2 |v| ≤ e) (hv : v ≠ 0)
    (h : isNearestEven (|v| / (2 : ℝ) ^ (e - fracBits fmt)) m) : m ≤ 2 ^ (fracBits fmt + 1) := by
  have hpos : 0 < |v| := abs_pos.2 hv
  have hlt : |v| < (2 : ℝ) ^ (e + 1) := by
    have := (Int.lt_zpow_iff_log_lt (b := 2) (by norm_num) hpos (x := e + 1)).2 (by omega)
    exact_mod_cast this
  have hq : |v| / (2 : ℝ) ^ (e - fracBits fmt) < (2 : ℝ) ^ (fracBits fmt + 1) := by
    rw [div_lt_iff₀ (by positivity), ← zpow_natCast, ← zpow_add₀ (by norm_num),
      show ((fracBits fmt + 1 : Nat) : ℤ) + (e - fracBits fmt) = e + 1 by push_cast; ring]
    exact hlt
  have h1 := (abs_le.1 h.1).1
  push_cast at h1
  have : (m : ℝ) < (2 ^ (fracBits fmt + 1) : Nat) + 1 := by push_cast; linarith
  exact Nat.lt_succ_iff.1 (by exact_mod_cast this)

/-- A rounded number has the width of the format. -/
theorem rounds_lt {fmt : FpFormat} {v : ℝ} {zs : Bool} {w : Nat} (h : rounds fmt v zs w) :
    w < 2 ^ (1 + expBits fmt + fracBits fmt) := by
  by_cases hv : v = 0
  · rw [h.1 hv]; exact fpPack_lt (Nat.zero_le _) (by positivity)
  · obtain ⟨e, m, he, hm, h1, h2⟩ := h.2 hv
    have hle := mantissa_le (he ▸ le_max_left _ _) hv hm
    by_cases hc : m = 2 ^ (fracBits fmt + 1)
    · exact isRoundedPattern_lt (Nat.pow_lt_pow_right (by norm_num) (by omega)) (h1 hc)
    · exact isRoundedPattern_lt (by omega) (h2 hc)

theorem infPattern_lt (fmt : FpFormat) (neg : Bool) :
    fpPack fmt neg (maxExp fmt) 0 < 2 ^ (1 + expBits fmt + fracBits fmt) := fpPack_lt le_rfl (by positivity)

theorem zeroPattern_lt (fmt : FpFormat) (neg : Bool) : fpPack fmt neg 0 0 < 2 ^ (1 + expBits fmt + fracBits fmt) :=
  fpPack_lt (Nat.zero_le _) (by positivity)

theorem isSum_lt {fmt : FpFormat} {a b : FpValue} {w : Nat} (h : isSum fmt a b w) :
    w < 2 ^ (1 + expBits fmt + fracBits fmt) := by
  unfold isSum at h
  split at h
  · exact h.2.2
  · exact h.2.2
  · split at h
    · rw [h]; exact infPattern_lt ..
    · exact h.2.2
  · rw [h]; exact infPattern_lt ..
  · rw [h]; exact infPattern_lt ..
  · rw [h]; exact zeroPattern_lt ..
  · exact rounds_lt h

theorem isProduct_lt {fmt : FpFormat} {a b : FpValue} {w : Nat} (h : isProduct fmt a b w) :
    w < 2 ^ (1 + expBits fmt + fracBits fmt) := by
  unfold isProduct at h
  split at h
  · exact h.2.2
  · exact h.2.2
  · exact h.2.2
  · exact h.2.2
  · rw [h]; exact infPattern_lt ..
  · rw [h]; exact infPattern_lt ..
  · exact rounds_lt h

theorem isQuotient_lt {fmt : FpFormat} {a b : FpValue} {w : Nat} (h : isQuotient fmt a b w) :
    w < 2 ^ (1 + expBits fmt + fracBits fmt) := by
  unfold isQuotient at h
  split at h
  · exact h.2.2
  · exact h.2.2
  · exact h.2.2
  · exact h.2.2
  · rw [h]; exact infPattern_lt ..
  · rw [h]; exact zeroPattern_lt ..
  · rw [h]; exact infPattern_lt ..
  · exact rounds_lt h

theorem isRoot_lt {fmt : FpFormat} {a : FpValue} {w : Nat} (h : isRoot fmt a w) :
    w < 2 ^ (1 + expBits fmt + fracBits fmt) := by
  unfold isRoot at h
  split at h
  · exact h.2.2
  · rw [h]; exact zeroPattern_lt ..
  · split at h
    · exact h.2.2
    · rw [h]; exact infPattern_lt ..
  · split at h
    · exact h.2.2
    · exact rounds_lt h

theorem isConversion_lt {fmt : FpFormat} {a : FpValue} {w : Nat} (h : isConversion fmt a w) :
    w < 2 ^ (1 + expBits fmt + fracBits fmt) := by
  unfold isConversion at h
  split at h
  · exact h.2.2
  · rw [h]; exact infPattern_lt ..
  · rw [h]; exact zeroPattern_lt ..
  · exact rounds_lt h

/-- A finite number that is not zero has a mantissa that is not zero (R251). -/
theorem fpValue_finite_pos {fmt : FpFormat} {w : Nat} {neg : Bool} {m : Nat} {e : ℤ}
    (h : fpValue fmt w = .finite neg m e) : 0 < m := by
  unfold fpValue at h
  dsimp only at h
  split at h
  · split at h <;> cases h
  · split at h
    · split at h
      · cases h
      · cases h; omega
    · cases h; positivity

/-! ### Operations on values -/

theorem realValue_finite (neg : Bool) (m : Nat) (e : ℤ) :
    realValue (.finite neg m e) = ((signedInt neg m : ℤ) : ℝ) * (2 : ℝ) ^ e := by
  cases neg <;> simp [realValue, signedInt]

theorem exactSum_spec (ma ea mb eb : ℤ) :
    ((exactSum ma ea mb eb).1 : ℝ) * (2 : ℝ) ^ (exactSum ma ea mb eb).2 = ma * (2 : ℝ) ^ ea + mb * (2 : ℝ) ^ eb := by
  unfold exactSum
  simp only
  push_cast
  have h : ∀ x : ℤ, min ea eb ≤ x → (2 : ℝ) ^ (x - min ea eb).toNat * (2 : ℝ) ^ min ea eb = (2 : ℝ) ^ x := by
    intro x hx
    rw [← zpow_natCast, Int.toNat_of_nonneg (by omega), ← zpow_add₀ (by norm_num)]
    congr 1; ring
  rw [add_mul, mul_assoc, mul_assoc, h _ (min_le_left _ _), h _ (min_le_right _ _)]

/-- A sum, or the NaN drawn when there is none (R255). -/
theorem addValues_spec {fmt : FpFormat} {a b : FpValue} {nan : Nat} (hn : isNaNPattern fmt nan) :
    isSum fmt a b ((addValues fmt a b).getD nan) := by
  cases a <;> cases b <;> simp only [addValues, isSum, Option.getD_some, Option.getD_none, fpInf, fpZero] <;> try exact hn
  · split
    · simp
    · simpa using hn
  · rename_i na nb mb eb
    have := roundScaled_rounds (fmt := fmt) (m := signedInt nb mb) (e := eb) (zs := false)
    rw [← realValue_finite] at this
    simpa [realValue] using this
  · rename_i na ma ea nb
    have := roundScaled_rounds (fmt := fmt) (m := signedInt na ma) (e := ea) (zs := false)
    rw [← realValue_finite] at this
    simpa [realValue] using this
  · rw [realValue_finite, realValue_finite, ← exactSum_spec]
    exact roundScaled_rounds

/-- A product, or the NaN drawn when there is none (R259). -/
theorem mulValues_spec {fmt : FpFormat} {a b : FpValue} {nan : Nat} (hn : isNaNPattern fmt nan) :
    isProduct fmt a b ((mulValues fmt a b).getD nan) := by
  cases a <;> cases b <;>
    simp only [mulValues, isProduct, Option.getD_some, Option.getD_none, fpInf, fpZero, valueSign] <;> try exact hn
  · exact ⟨fun _ => rfl, fun h => absurd (by simp [realValue]) h⟩
  · exact ⟨fun _ => rfl, fun h => absurd (by simp [realValue]) h⟩
  · exact ⟨fun _ => rfl, fun h => absurd (by simp [realValue]) h⟩
  · rename_i na ma ea nb mb eb
    have := roundScaled_rounds (fmt := fmt) (m := signedInt na ma * signedInt nb mb) (e := ea + eb) (zs := na ^^ nb)
    rw [realValue_finite, realValue_finite]
    convert this using 1
    rw [zpow_add₀ (by norm_num)]
    push_cast; ring

/-- A quotient, or the NaN drawn when there is none (R261); a finite number that is divided by is not zero. -/
theorem divValues_spec {fmt : FpFormat} {a b : FpValue} {nan : Nat} (hn : isNaNPattern fmt nan)
    (ha : ∀ neg m e, a = .finite neg m e → 0 < m) (hb : ∀ neg m e, b = .finite neg m e → 0 < m) :
    isQuotient fmt a b ((divValues fmt a b).getD nan) := by
  cases a <;> cases b <;>
    simp only [divValues, isQuotient, Option.getD_some, Option.getD_none, fpInf, fpZero, valueSign] <;> try exact hn
  · exact ⟨fun _ => rfl, fun h => absurd (by simp [realValue]) h⟩
  · rename_i na ma ea nb mb eb
    have h1 := ha _ _ _ rfl
    have h2 := hb _ _ _ rfl
    have := roundMagnitude_rounds (fmt := fmt) (neg := na ^^ nb) (n := ma * 2 ^ (ea - eb).toNat)
      (d := mb * 2 ^ (eb - ea).toNat) (zs := na ^^ nb) (by positivity) (by positivity)
    convert this using 1
    have hz := scaled_div ma mb h2 (eb - ea)
    rw [show -(eb - ea) = ea - eb by ring] at hz
    rw [hz, realValue, realValue, zpow_sub₀ (by norm_num)]
    have : (mb : ℝ) ≠ 0 := by exact_mod_cast h2.ne'
    cases na <;> cases nb <;> simp <;> field_simp

/-- A square root, or the NaN drawn when there is none (R263). -/
theorem sqrtValue_spec {fmt : FpFormat} {a : FpValue} {nan : Nat} (hn : isNaNPattern fmt nan)
    (ha : ∀ neg m e, a = .finite neg m e → 0 < m) : isRoot fmt a ((sqrtValue fmt a).getD nan) := by
  cases a with
  | nan => exact hn
  | zero neg => rfl
  | inf neg => cases neg
               · rfl
               · exact hn
  | finite neg m e =>
    cases neg
    · have := sqrtMagnitude_rounds (fmt := fmt) (e := e) (ha _ _ _ rfl)
      simpa [sqrtValue, isRoot, realValue] using this
    · exact hn

/-- A conversion, or the NaN drawn for a NaN (R283, R284). -/
theorem convertValue_spec {fmt : FpFormat} {a : FpValue} {nan : Nat} (hn : isNaNPattern fmt nan) :
    isConversion fmt a ((convertValue fmt a).getD nan) := by
  cases a with
  | nan => exact hn
  | zero neg => rfl
  | inf neg => rfl
  | finite neg m e =>
    show rounds fmt (realValue (.finite neg m e)) false _
    rw [realValue_finite]
    exact roundScaled_rounds

/-! ### Conversion to a word -/

theorem isNearestEven_neg {q : ℝ} {m : ℤ} (h : isNearestEven q m) : isNearestEven (-q) (-m) := by
  have e : |(-q) - ((-m : ℤ) : ℝ)| = |q - m| := by rw [← abs_neg]; congr 1; push_cast; ring
  refine ⟨by rw [e]; exact h.1, fun h' => ?_⟩
  rw [e] at h'
  exact (h.2 h').neg

/-- The four ways to round to an integer (R249). -/
theorem roundToInt_spec {mode : IntRounding} {neg : Bool} {n d : Nat} (hd : 0 < d) :
    roundsToInt mode ((if neg then -1 else 1) * ((n : ℝ) / d)) (roundToInt mode neg n d) := by
  have hd' : (0 : ℝ) < d := by exact_mod_cast hd
  have hfl : ∀ z : ℤ, ⌊(z : ℝ) / d⌋ = z / (d : ℤ) := fun z => by
    rw [Int.floor_eq_iff, le_div_iff₀ hd', div_lt_iff₀ hd']
    have h1 := Int.mul_ediv_add_emod z d
    have h2 := Int.emod_nonneg z (b := d) (by omega)
    have h3 := Int.emod_lt_of_pos z (b := d) (by omega)
    generalize z / (d : ℤ) = q at *
    constructor
    · have : q * d ≤ z := by nlinarith
      exact_mod_cast this
    · have : z < (q + 1) * d := by nlinarith
      exact_mod_cast this
  cases mode with
  | nearest =>
    cases neg with
    | false => simpa [roundsToInt, roundToInt, signedInt] using roundNearestEven_spec (n := n) hd
    | true => simpa [roundsToInt, roundToInt, signedInt] using isNearestEven_neg (roundNearestEven_spec (n := n) hd)
  | zero =>
    have h0 : (0 : ℝ) ≤ (n : ℝ) / d := by positivity
    have hf := hfl n
    push_cast at hf
    cases neg with
    | false =>
      simp only [roundsToInt, roundToInt, signedInt, if_false, one_mul, h0, if_true, hf, Bool.false_eq_true,
        Int.natCast_div]
    | true =>
      simp only [roundsToInt, roundToInt, signedInt, if_true, neg_mul, one_mul, Int.ceil_neg, hf, Int.natCast_div]
      split
      · rename_i hneg
        have hz : (n : ℝ) / d = 0 := by linarith
        have hz' : (n : ℤ) / (d : ℤ) = 0 := by rw [← hf, hz, Int.floor_zero]
        rw [hz', hz]; simp
      · trivial
  | up =>
    have hf := hfl (-signedInt neg n)
    have e : signedInt (!neg) n = -signedInt neg n := by cases neg <;> simp [signedInt]
    have ev : (if neg then -1 else 1) * ((n : ℝ) / d) = -(((-signedInt neg n : ℤ) : ℝ) / d) := by
      cases neg <;> simp [signedInt, neg_div]
    simp only [roundsToInt, roundToInt, e, ev, Int.ceil_neg, hf]
  | down =>
    have hf := hfl (signedInt neg n)
    have ev : (if neg then -1 else 1) * ((n : ℝ) / d) = ((signedInt neg n : ℤ) : ℝ) / d := by
      cases neg <;> simp [signedInt, neg_div]
    simp only [roundsToInt, roundToInt, ev, hf]

/-- A conversion to a word, or the word drawn when there is none (R249). -/
theorem toWord_spec {fmt : FpFormat} {mode : IntRounding} {a : Nat} {drawn : Word} :
    isWordOf mode (fpValue fmt a) ((toWord fmt mode a).getD drawn) := by
  intro hnum
  unfold toWord
  generalize fpValue fmt a = v at *
  have key : ∃ n, valueToInt mode v = some n ∧ roundsToInt mode (realValue v) n := by
    cases v with
    | nan => exact absurd hnum id
    | inf neg => exact absurd hnum id
    | zero neg =>
      refine ⟨0, rfl, ?_⟩
      cases mode <;> simp [roundsToInt, realValue, isNearestEven]
    | finite neg m e =>
      refine ⟨_, rfl, ?_⟩
      have := roundToInt_spec (mode := mode) (neg := neg) (n := m * 2 ^ e.toNat) (d := 2 ^ (-e).toNat) (by positivity)
      convert this using 1
      rw [realValue, zpow_split]
      push_cast
      ring
  obtain ⟨n, h1, h2⟩ := key
  refine ⟨n, h2, fun h3 h4 => ?_⟩
  simp only [h1]
  rw [if_neg (by omega), Option.getD_some, BitVec.toInt_ofInt]
  exact Int.bmod_eq_of_le (by omega) (by omega)

/-! ### Comparison -/

theorem intRelation_spec (a b : ℤ) :
    (intRelation a b = .less ↔ a < b) ∧ (intRelation a b = .equal ↔ a = b) ∧ (intRelation a b = .greater ↔ b < a) ∧
      intRelation a b ≠ .unordered := by
  unfold intRelation
  split
  · refine ⟨by simpa, ?_, ?_, by simp⟩
    · simp; omega
    · simp; omega
  · split
    · subst_vars; simp
    · refine ⟨by simp; omega, by simp; omega, ?_, by simp⟩
      simp; omega

theorem realValue_number (v : FpValue) (h : isNumber v) :
    realValue v = ((valueMantissa v : ℤ) : ℝ) * (2 : ℝ) ^ valueExponent v := by
  cases v with
  | nan => exact absurd h id
  | inf neg => exact absurd h id
  | zero neg => simp [realValue, valueMantissa]
  | finite neg m e => exact realValue_finite ..

theorem finiteRelation_spec (a b : FpValue) (ha : isNumber a) (hb : isNumber b) :
    (finiteRelation a b = .less ↔ realValue a < realValue b) ∧ (finiteRelation a b = .equal ↔ realValue a = realValue b) := by
  have hs := exactSum_spec (valueMantissa a) (valueExponent a) (-valueMantissa b) (valueExponent b)
  push_cast at hs
  rw [neg_mul, ← realValue_number a ha, ← realValue_number b hb] at hs
  obtain ⟨h1, h2, -, -⟩ :=
    intRelation_spec (exactSum (valueMantissa a) (valueExponent a) (-valueMantissa b) (valueExponent b)).1 0
  unfold finiteRelation
  rw [h1, h2]
  generalize exactSum (valueMantissa a) (valueExponent a) (-valueMantissa b) (valueExponent b) = p at *
  have hp : (0 : ℝ) < (2 : ℝ) ^ p.2 := by positivity
  constructor
  · rw [show realValue a < realValue b ↔ realValue a + -realValue b < 0 by constructor <;> intro h <;> linarith, ← hs,
      mul_neg_iff]
    constructor
    · intro h; exact .inr ⟨by exact_mod_cast h, hp⟩
    · rintro (⟨-, h⟩ | ⟨h, -⟩)
      · exact absurd h (not_lt.2 hp.le)
      · exact_mod_cast h
  · rw [show realValue a = realValue b ↔ realValue a + -realValue b = 0 by constructor <;> intro h <;> linarith, ← hs,
      mul_eq_zero]
    constructor
    · intro h; exact .inl (by exact_mod_cast h)
    · rintro (h | h)
      · exact_mod_cast h
      · exact absurd h hp.ne'

/-- The relation of two values (R289). -/
theorem compareValues_spec (a b : FpValue) :
    (compareValues a b = .less ↔ isLess a b) ∧ (compareValues a b = .equal ↔ isEqual a b) ∧
      (compareValues a b = .unordered ↔ isUnordered a b) := by
  have fin : ∀ v, isNumber v → extendedValue v = ((realValue v : ℝ) : EReal) ∧ infRank v = 0 := by
    intro v hv
    cases v <;> simp_all [isNumber, extendedValue, realValue, infRank]
  by_cases hn : a = .nan ∨ b = .nan
  · unfold compareValues isLess isEqual isUnordered
    rw [if_pos hn]
    simp only [hn, reduceCtorEq, false_iff]
    tauto
  · have hu : ¬ isUnordered a b := hn
    have hn' := not_or.1 hn
    have inner : (compareValues a b = .less ↔ extendedValue a < extendedValue b) ∧
        (compareValues a b = .equal ↔ extendedValue a = extendedValue b) ∧ compareValues a b ≠ .unordered := by
      unfold compareValues
      rw [if_neg hn]
      by_cases hab : isNumber a ∧ isNumber b
      · obtain ⟨a1, a2⟩ := fin a hab.1
        obtain ⟨b1, b2⟩ := fin b hab.2
        rw [if_pos ⟨a2, b2⟩, a1, b1, EReal.coe_lt_coe_iff, EReal.coe_eq_coe_iff]
        obtain ⟨h1, h2⟩ := finiteRelation_spec a b hab.1 hab.2
        exact ⟨h1, h2, (intRelation_spec _ _).2.2.2⟩
      · have hr : ¬ (infRank a = 0 ∧ infRank b = 0) := by
          rintro ⟨h1, h2⟩
          apply hab
          cases a <;> cases b <;> simp_all [isNumber, infRank] <;> split at * <;> simp_all
        rw [if_neg hr]
        obtain ⟨h1, h2, -, h3⟩ := intRelation_spec (infRank a) (infRank b)
        rw [h1, h2]
        refine ⟨?_, ?_, h3⟩
        all_goals
          rcases a with _ | na | na | ⟨na, ma, ea⟩ <;> rcases b with _ | nb | nb | ⟨nb, mb, eb⟩ <;>
            first
            | exact absurd rfl hn'.1
            | exact absurd rfl hn'.2
            | (exfalso; exact hab ⟨trivial, trivial⟩)
            | (try cases na) <;> (try cases nb) <;> simp [infRank, extendedValue]
    refine ⟨?_, ?_, ?_⟩
    · rw [inner.1]; exact ⟨fun h => ⟨hn'.1, hn'.2, h⟩, fun h => h.2.2⟩
    · rw [inner.2.1]; exact ⟨fun h => ⟨hn'.1, hn'.2, h⟩, fun h => h.2.2⟩
    · exact ⟨fun h => absurd h inner.2.2, fun h => absurd h hu⟩

end Sys2Proof.Machine
end

