-- ==== Sys2Proof/Laws/PerInstr.lean ====
section
/-! SUPPORT. For every instruction: its word carries the fixed bits of its row of spec/opcode_table.json (R115). -/

namespace Sys2Proof

/-- A bitwise and, field by field. -/
theorem append_and {m n : Nat} (x x' : BitVec m) (y y' : BitVec n) :
    (x ++ y) &&& (x' ++ y') = (x &&& x') ++ (y &&& y') := BitVec.and_append

theorem packJ_and (op op' : BitVec 6) (address address' : BitVec 26) :
    packJ op address &&& packJ op' address' = packJ (op &&& op') (address &&& address') :=
  append_and op op' address address'

theorem append3_and {l m n : Nat} (x x' : BitVec l) (y y' : BitVec m) (z z' : BitVec n) :
    (x ++ y ++ z) &&& (x' ++ y' ++ z') = (x &&& x') ++ (y &&& y') ++ (z &&& z') := by
  rw [append_and, append_and]

theorem append4_and {k l m n : Nat} (v v' : BitVec k) (x x' : BitVec l) (y y' : BitVec m) (z z' : BitVec n) :
    (v ++ x ++ y ++ z) &&& (v' ++ x' ++ y' ++ z') = (v &&& v') ++ (x &&& x') ++ (y &&& y') ++ (z &&& z') := by
  rw [append_and, append3_and]

theorem append5_and {j k l m n : Nat} (u u' : BitVec j) (v v' : BitVec k) (x x' : BitVec l) (y y' : BitVec m)
    (z z' : BitVec n) : (u ++ v ++ x ++ y ++ z) &&& (u' ++ v' ++ x' ++ y' ++ z') =
      (u &&& u') ++ (v &&& v') ++ (x &&& x') ++ (y &&& y') ++ (z &&& z') := by
  rw [append_and, append4_and]

theorem append6_and {i j k l m n : Nat} (t t' : BitVec i) (u u' : BitVec j) (v v' : BitVec k) (x x' : BitVec l)
    (y y' : BitVec m) (z z' : BitVec n) : (t ++ u ++ v ++ x ++ y ++ z) &&& (t' ++ u' ++ v' ++ x' ++ y' ++ z') =
      (t &&& t') ++ (u &&& u') ++ (v &&& v') ++ (x &&& x') ++ (y &&& y') ++ (z &&& z') := by
  rw [append_and, append5_and]

theorem packR_and (op op' : BitVec 6) (a a' b b' c c' d d' : BitVec 5) (fn fn' : BitVec 6) :
    packR op a b c d fn &&& packR op' a' b' c' d' fn' =
      packR (op &&& op') (a &&& a') (b &&& b') (c &&& c') (d &&& d') (fn &&& fn') :=
  append6_and op op' a a' b b' c c' d d' fn fn'

theorem packI_and (op op' : BitVec 6) (a a' b b' : BitVec 5) (imm imm' : Half) :
    packI op a b imm &&& packI op' a' b' imm' = packI (op &&& op') (a &&& a') (b &&& b') (imm &&& imm') :=
  append4_and op op' a a' b b' imm imm'

theorem packCode_and (code code' : BitVec 20) (fn fn' : BitVec 6) :
    packCode code fn &&& (0x3f#6 ++ code' ++ fn' : Word) = packCode (code &&& code') (fn &&& fn') :=
  append3_and 0x00#6 0x3f#6 code code' fn fn'

theorem packTrap_and (a a' b b' : BitVec 5) (code code' : BitVec 10) (fn fn' : BitVec 6) :
    packTrap a b code fn &&& (0x3f#6 ++ a' ++ b' ++ code' ++ fn' : Word) =
      packTrap (a &&& a') (b &&& b') (code &&& code') (fn &&& fn') :=
  append5_and 0x00#6 0x3f#6 a a' b b' code code' fn fn'

end Sys2Proof

namespace Sys2Proof.Laws.TableRow

/-- The fixed bits of the instruction's row: their values and their places (spec/opcode_table.json). -/
def row (i : Instr) : Word × Word :=
  match i with
  | .add _ _ _ => (0x00000020#32, 0xfc0007ff#32)
  | .addi _ _ _ => (0x20000000#32, 0xfc000000#32)
  | .addiu _ _ _ => (0x24000000#32, 0xfc000000#32)
  | .addu _ _ _ => (0x00000021#32, 0xfc0007ff#32)
  | .and _ _ _ => (0x00000024#32, 0xfc0007ff#32)
  | .andi _ _ _ => (0x30000000#32, 0xfc000000#32)
  | .lui _ _ => (0x3c000000#32, 0xffe00000#32)
  | .nor _ _ _ => (0x00000027#32, 0xfc0007ff#32)
  | .or _ _ _ => (0x00000025#32, 0xfc0007ff#32)
  | .ori _ _ _ => (0x34000000#32, 0xfc000000#32)
  | .slt _ _ _ => (0x0000002a#32, 0xfc0007ff#32)
  | .slti _ _ _ => (0x28000000#32, 0xfc000000#32)
  | .sltiu _ _ _ => (0x2c000000#32, 0xfc000000#32)
  | .sltu _ _ _ => (0x0000002b#32, 0xfc0007ff#32)
  | .sll _ _ _ => (0x00000000#32, 0xffe0003f#32)
  | .srl _ _ _ => (0x00000002#32, 0xffe0003f#32)
  | .sub _ _ _ => (0x00000022#32, 0xfc0007ff#32)
  | .subu _ _ _ => (0x00000023#32, 0xfc0007ff#32)
  | .sra _ _ _ => (0x00000003#32, 0xffe0003f#32)
  | .xor _ _ _ => (0x00000026#32, 0xfc0007ff#32)
  | .xori _ _ _ => (0x38000000#32, 0xfc000000#32)
  | .sllv _ _ _ => (0x00000004#32, 0xfc0007ff#32)
  | .srlv _ _ _ => (0x00000006#32, 0xfc0007ff#32)
  | .srav _ _ _ => (0x00000007#32, 0xfc0007ff#32)
  | .movz _ _ _ => (0x0000000a#32, 0xfc0007ff#32)
  | .movn _ _ _ => (0x0000000b#32, 0xfc0007ff#32)
  | .beq _ _ _ => (0x10000000#32, 0xfc000000#32)
  | .bne _ _ _ => (0x14000000#32, 0xfc000000#32)
  | .j _ => (0x08000000#32, 0xfc000000#32)
  | .jal _ => (0x0c000000#32, 0xfc000000#32)
  | .jr _ => (0x00000008#32, 0xfc1fffff#32)
  | .blez _ _ => (0x18000000#32, 0xfc1f0000#32)
  | .bgtz _ _ => (0x1c000000#32, 0xfc1f0000#32)
  | .jalr _ _ => (0x00000009#32, 0xfc1f07ff#32)
  | .lbu _ _ _ => (0x90000000#32, 0xfc000000#32)
  | .lhu _ _ _ => (0x94000000#32, 0xfc000000#32)
  | .ll _ _ _ => (0xc0000000#32, 0xfc000000#32)
  | .lw _ _ _ => (0x8c000000#32, 0xfc000000#32)
  | .sb _ _ _ => (0xa0000000#32, 0xfc000000#32)
  | .sc _ _ _ => (0xe0000000#32, 0xfc000000#32)
  | .sh _ _ _ => (0xa4000000#32, 0xfc000000#32)
  | .sw _ _ _ => (0xac000000#32, 0xfc000000#32)
  | .lb _ _ _ => (0x80000000#32, 0xfc000000#32)
  | .lh _ _ _ => (0x84000000#32, 0xfc000000#32)
  | .lwl _ _ _ => (0x88000000#32, 0xfc000000#32)
  | .lwr _ _ _ => (0x98000000#32, 0xfc000000#32)
  | .swl _ _ _ => (0xa8000000#32, 0xfc000000#32)
  | .swr _ _ _ => (0xb8000000#32, 0xfc000000#32)
  | .div _ _ => (0x0000001a#32, 0xfc00ffff#32)
  | .divu _ _ => (0x0000001b#32, 0xfc00ffff#32)
  | .mfhi _ => (0x00000010#32, 0xffff07ff#32)
  | .mflo _ => (0x00000012#32, 0xffff07ff#32)
  | .mult _ _ => (0x00000018#32, 0xfc00ffff#32)
  | .multu _ _ => (0x00000019#32, 0xfc00ffff#32)
  | .mthi _ => (0x00000011#32, 0xfc1fffff#32)
  | .mtlo _ => (0x00000013#32, 0xfc1fffff#32)
  | .addS _ _ _ => (0x46000000#32, 0xffe0003f#32)
  | .addD _ _ _ => (0x46200000#32, 0xffe0003f#32)
  | .subS _ _ _ => (0x46000001#32, 0xffe0003f#32)
  | .subD _ _ _ => (0x46200001#32, 0xffe0003f#32)
  | .mulS _ _ _ => (0x46000002#32, 0xffe0003f#32)
  | .mulD _ _ _ => (0x46200002#32, 0xffe0003f#32)
  | .divS _ _ _ => (0x46000003#32, 0xffe0003f#32)
  | .divD _ _ _ => (0x46200003#32, 0xffe0003f#32)
  | .sqrtS _ _ => (0x46000004#32, 0xffff003f#32)
  | .sqrtD _ _ => (0x46200004#32, 0xffff003f#32)
  | .absS _ _ => (0x46000005#32, 0xffff003f#32)
  | .absD _ _ => (0x46200005#32, 0xffff003f#32)
  | .movS _ _ => (0x46000006#32, 0xffff003f#32)
  | .movD _ _ => (0x46200006#32, 0xffff003f#32)
  | .negS _ _ => (0x46000007#32, 0xffff003f#32)
  | .negD _ _ => (0x46200007#32, 0xffff003f#32)
  | .roundWS _ _ => (0x4600000c#32, 0xffff003f#32)
  | .roundWD _ _ => (0x4620000c#32, 0xffff003f#32)
  | .truncWS _ _ => (0x4600000d#32, 0xffff003f#32)
  | .truncWD _ _ => (0x4620000d#32, 0xffff003f#32)
  | .ceilWS _ _ => (0x4600000e#32, 0xffff003f#32)
  | .ceilWD _ _ => (0x4620000e#32, 0xffff003f#32)
  | .floorWS _ _ => (0x4600000f#32, 0xffff003f#32)
  | .floorWD _ _ => (0x4620000f#32, 0xffff003f#32)
  | .movzS _ _ _ => (0x46000012#32, 0xffe0003f#32)
  | .movzD _ _ _ => (0x46200012#32, 0xffe0003f#32)
  | .movnS _ _ _ => (0x46000013#32, 0xffe0003f#32)
  | .movnD _ _ _ => (0x46200013#32, 0xffe0003f#32)
  | .cvtSD _ _ => (0x46200020#32, 0xffff003f#32)
  | .cvtDS _ _ => (0x46000021#32, 0xffff003f#32)
  | .cvtWS _ _ => (0x46000024#32, 0xffff003f#32)
  | .cvtWD _ _ => (0x46200024#32, 0xffff003f#32)
  | .cvtSS _ _ => (0x46000020#32, 0xffff003f#32)
  | .cvtDD _ _ => (0x46200021#32, 0xffff003f#32)
  | .cFS _ _ => (0x46000030#32, 0xffe007ff#32)
  | .cFD _ _ => (0x46200030#32, 0xffe007ff#32)
  | .cUnS _ _ => (0x46000031#32, 0xffe007ff#32)
  | .cUnD _ _ => (0x46200031#32, 0xffe007ff#32)
  | .cEqS _ _ => (0x46000032#32, 0xffe007ff#32)
  | .cEqD _ _ => (0x46200032#32, 0xffe007ff#32)
  | .cUeqS _ _ => (0x46000033#32, 0xffe007ff#32)
  | .cUeqD _ _ => (0x46200033#32, 0xffe007ff#32)
  | .cOltS _ _ => (0x46000034#32, 0xffe007ff#32)
  | .cOltD _ _ => (0x46200034#32, 0xffe007ff#32)
  | .cUltS _ _ => (0x46000035#32, 0xffe007ff#32)
  | .cUltD _ _ => (0x46200035#32, 0xffe007ff#32)
  | .cOleS _ _ => (0x46000036#32, 0xffe007ff#32)
  | .cOleD _ _ => (0x46200036#32, 0xffe007ff#32)
  | .cUleS _ _ => (0x46000037#32, 0xffe007ff#32)
  | .cUleD _ _ => (0x46200037#32, 0xffe007ff#32)
  | .cSfS _ _ => (0x46000038#32, 0xffe007ff#32)
  | .cSfD _ _ => (0x46200038#32, 0xffe007ff#32)
  | .cNgleS _ _ => (0x46000039#32, 0xffe007ff#32)
  | .cNgleD _ _ => (0x46200039#32, 0xffe007ff#32)
  | .cSeqS _ _ => (0x4600003a#32, 0xffe007ff#32)
  | .cSeqD _ _ => (0x4620003a#32, 0xffe007ff#32)
  | .cNglS _ _ => (0x4600003b#32, 0xffe007ff#32)
  | .cNglD _ _ => (0x4620003b#32, 0xffe007ff#32)
  | .cLtS _ _ => (0x4600003c#32, 0xffe007ff#32)
  | .cLtD _ _ => (0x4620003c#32, 0xffe007ff#32)
  | .cNgeS _ _ => (0x4600003d#32, 0xffe007ff#32)
  | .cNgeD _ _ => (0x4620003d#32, 0xffe007ff#32)
  | .cLeS _ _ => (0x4600003e#32, 0xffe007ff#32)
  | .cLeD _ _ => (0x4620003e#32, 0xffe007ff#32)
  | .cNgtS _ _ => (0x4600003f#32, 0xffe007ff#32)
  | .cNgtD _ _ => (0x4620003f#32, 0xffe007ff#32)
  | .lwc1 _ _ _ => (0xc4000000#32, 0xfc000000#32)
  | .ldc1 _ _ _ => (0xd4000000#32, 0xfc000000#32)
  | .swc1 _ _ _ => (0xe4000000#32, 0xfc000000#32)
  | .sdc1 _ _ _ => (0xf4000000#32, 0xfc000000#32)
  | .bc1t _ => (0x45010000#32, 0xffff0000#32)
  | .bc1f _ => (0x45000000#32, 0xffff0000#32)
  | .mfc0 _ _ => (0x40000000#32, 0xffe007ff#32)
  | .mtc0 _ _ => (0x40800000#32, 0xffe007ff#32)
  | .eret => (0x42000018#32, 0xffffffff#32)
  | .syscall _ => (0x0000000c#32, 0xfc00003f#32)
  | .brk _ => (0x0000000d#32, 0xfc00003f#32)
  | .sync => (0x0000000f#32, 0xffffffff#32)
  | .tge _ _ _ => (0x00000030#32, 0xfc00003f#32)
  | .tgeu _ _ _ => (0x00000031#32, 0xfc00003f#32)
  | .tlt _ _ _ => (0x00000032#32, 0xfc00003f#32)
  | .tltu _ _ _ => (0x00000033#32, 0xfc00003f#32)
  | .teq _ _ _ => (0x00000034#32, 0xfc00003f#32)
  | .tne _ _ _ => (0x00000036#32, 0xfc00003f#32)
  | .cache _ _ _ => (0xbc000000#32, 0xfc000000#32)
  | .pref _ _ _ => (0xcc000000#32, 0xfc000000#32)
  | .lwc2 _ _ _ => (0xc8000000#32, 0xfc000000#32)
  | .ldc2 _ _ _ => (0xd8000000#32, 0xfc000000#32)
  | .swc2 _ _ _ => (0xe8000000#32, 0xfc000000#32)
  | .sdc2 _ _ _ => (0xf8000000#32, 0xfc000000#32)

/-- The word of the instruction carries the fixed bits of its row (R115). -/
def Statement (i : Instr) : Prop := encode i &&& (row i).2 = (row i).1

theorem add (rd rs rt : RegNum) : Statement (.add rd rs rt) := by
  show packR 0x00#6 rs rt rd 0#5 0x20#6 &&& packR 63#6 0#5 0#5 0#5 31#5 63#6 =
    packR 0#6 0#5 0#5 0#5 0#5 32#6
  rw [packR_and]
  simp

theorem addi (rt rs : RegNum) (imm : Half) : Statement (.addi rt rs imm) := by
  show packI 0x08#6 rs rt imm &&& packI 63#6 0#5 0#5 0#16 =
    packI 8#6 0#5 0#5 0#16
  rw [packI_and]
  simp

theorem addiu (rt rs : RegNum) (imm : Half) : Statement (.addiu rt rs imm) := by
  show packI 0x09#6 rs rt imm &&& packI 63#6 0#5 0#5 0#16 =
    packI 9#6 0#5 0#5 0#16
  rw [packI_and]
  simp

theorem addu (rd rs rt : RegNum) : Statement (.addu rd rs rt) := by
  show packR 0x00#6 rs rt rd 0#5 0x21#6 &&& packR 63#6 0#5 0#5 0#5 31#5 63#6 =
    packR 0#6 0#5 0#5 0#5 0#5 33#6
  rw [packR_and]
  simp

theorem and (rd rs rt : RegNum) : Statement (.and rd rs rt) := by
  show packR 0x00#6 rs rt rd 0#5 0x24#6 &&& packR 63#6 0#5 0#5 0#5 31#5 63#6 =
    packR 0#6 0#5 0#5 0#5 0#5 36#6
  rw [packR_and]
  simp

theorem andi (rt rs : RegNum) (imm : Half) : Statement (.andi rt rs imm) := by
  show packI 0x0c#6 rs rt imm &&& packI 63#6 0#5 0#5 0#16 =
    packI 12#6 0#5 0#5 0#16
  rw [packI_and]
  simp

theorem lui (rt : RegNum) (imm : Half) : Statement (.lui rt imm) := by
  show packI 0x0f#6 0#5 rt imm &&& packI 63#6 31#5 0#5 0#16 =
    packI 15#6 0#5 0#5 0#16
  rw [packI_and]
  simp

theorem nor (rd rs rt : RegNum) : Statement (.nor rd rs rt) := by
  show packR 0x00#6 rs rt rd 0#5 0x27#6 &&& packR 63#6 0#5 0#5 0#5 31#5 63#6 =
    packR 0#6 0#5 0#5 0#5 0#5 39#6
  rw [packR_and]
  simp

theorem or (rd rs rt : RegNum) : Statement (.or rd rs rt) := by
  show packR 0x00#6 rs rt rd 0#5 0x25#6 &&& packR 63#6 0#5 0#5 0#5 31#5 63#6 =
    packR 0#6 0#5 0#5 0#5 0#5 37#6
  rw [packR_and]
  simp

theorem ori (rt rs : RegNum) (imm : Half) : Statement (.ori rt rs imm) := by
  show packI 0x0d#6 rs rt imm &&& packI 63#6 0#5 0#5 0#16 =
    packI 13#6 0#5 0#5 0#16
  rw [packI_and]
  simp

theorem slt (rd rs rt : RegNum) : Statement (.slt rd rs rt) := by
  show packR 0x00#6 rs rt rd 0#5 0x2a#6 &&& packR 63#6 0#5 0#5 0#5 31#5 63#6 =
    packR 0#6 0#5 0#5 0#5 0#5 42#6
  rw [packR_and]
  simp

theorem slti (rt rs : RegNum) (imm : Half) : Statement (.slti rt rs imm) := by
  show packI 0x0a#6 rs rt imm &&& packI 63#6 0#5 0#5 0#16 =
    packI 10#6 0#5 0#5 0#16
  rw [packI_and]
  simp

theorem sltiu (rt rs : RegNum) (imm : Half) : Statement (.sltiu rt rs imm) := by
  show packI 0x0b#6 rs rt imm &&& packI 63#6 0#5 0#5 0#16 =
    packI 11#6 0#5 0#5 0#16
  rw [packI_and]
  simp

theorem sltu (rd rs rt : RegNum) : Statement (.sltu rd rs rt) := by
  show packR 0x00#6 rs rt rd 0#5 0x2b#6 &&& packR 63#6 0#5 0#5 0#5 31#5 63#6 =
    packR 0#6 0#5 0#5 0#5 0#5 43#6
  rw [packR_and]
  simp

theorem sll (rd rt : RegNum) (shamt : BitVec 5) : Statement (.sll rd rt shamt) := by
  show packR 0x00#6 0#5 rt rd shamt 0x00#6 &&& packR 63#6 31#5 0#5 0#5 0#5 63#6 =
    packR 0#6 0#5 0#5 0#5 0#5 0#6
  rw [packR_and]
  simp

theorem srl (rd rt : RegNum) (shamt : BitVec 5) : Statement (.srl rd rt shamt) := by
  show packR 0x00#6 0#5 rt rd shamt 0x02#6 &&& packR 63#6 31#5 0#5 0#5 0#5 63#6 =
    packR 0#6 0#5 0#5 0#5 0#5 2#6
  rw [packR_and]
  simp

theorem sub (rd rs rt : RegNum) : Statement (.sub rd rs rt) := by
  show packR 0x00#6 rs rt rd 0#5 0x22#6 &&& packR 63#6 0#5 0#5 0#5 31#5 63#6 =
    packR 0#6 0#5 0#5 0#5 0#5 34#6
  rw [packR_and]
  simp

theorem subu (rd rs rt : RegNum) : Statement (.subu rd rs rt) := by
  show packR 0x00#6 rs rt rd 0#5 0x23#6 &&& packR 63#6 0#5 0#5 0#5 31#5 63#6 =
    packR 0#6 0#5 0#5 0#5 0#5 35#6
  rw [packR_and]
  simp

theorem sra (rd rt : RegNum) (shamt : BitVec 5) : Statement (.sra rd rt shamt) := by
  show packR 0x00#6 0#5 rt rd shamt 0x03#6 &&& packR 63#6 31#5 0#5 0#5 0#5 63#6 =
    packR 0#6 0#5 0#5 0#5 0#5 3#6
  rw [packR_and]
  simp

theorem xor (rd rs rt : RegNum) : Statement (.xor rd rs rt) := by
  show packR 0x00#6 rs rt rd 0#5 0x26#6 &&& packR 63#6 0#5 0#5 0#5 31#5 63#6 =
    packR 0#6 0#5 0#5 0#5 0#5 38#6
  rw [packR_and]
  simp

theorem xori (rt rs : RegNum) (imm : Half) : Statement (.xori rt rs imm) := by
  show packI 0x0e#6 rs rt imm &&& packI 63#6 0#5 0#5 0#16 =
    packI 14#6 0#5 0#5 0#16
  rw [packI_and]
  simp

theorem sllv (rd rt rs : RegNum) : Statement (.sllv rd rt rs) := by
  show packR 0x00#6 rs rt rd 0#5 0x04#6 &&& packR 63#6 0#5 0#5 0#5 31#5 63#6 =
    packR 0#6 0#5 0#5 0#5 0#5 4#6
  rw [packR_and]
  simp

theorem srlv (rd rt rs : RegNum) : Statement (.srlv rd rt rs) := by
  show packR 0x00#6 rs rt rd 0#5 0x06#6 &&& packR 63#6 0#5 0#5 0#5 31#5 63#6 =
    packR 0#6 0#5 0#5 0#5 0#5 6#6
  rw [packR_and]
  simp

theorem srav (rd rt rs : RegNum) : Statement (.srav rd rt rs) := by
  show packR 0x00#6 rs rt rd 0#5 0x07#6 &&& packR 63#6 0#5 0#5 0#5 31#5 63#6 =
    packR 0#6 0#5 0#5 0#5 0#5 7#6
  rw [packR_and]
  simp

theorem movz (rd rs rt : RegNum) : Statement (.movz rd rs rt) := by
  show packR 0x00#6 rs rt rd 0#5 0x0a#6 &&& packR 63#6 0#5 0#5 0#5 31#5 63#6 =
    packR 0#6 0#5 0#5 0#5 0#5 10#6
  rw [packR_and]
  simp

theorem movn (rd rs rt : RegNum) : Statement (.movn rd rs rt) := by
  show packR 0x00#6 rs rt rd 0#5 0x0b#6 &&& packR 63#6 0#5 0#5 0#5 31#5 63#6 =
    packR 0#6 0#5 0#5 0#5 0#5 11#6
  rw [packR_and]
  simp

theorem beq (rs rt : RegNum) (imm : Half) : Statement (.beq rs rt imm) := by
  show packI 0x04#6 rs rt imm &&& packI 63#6 0#5 0#5 0#16 =
    packI 4#6 0#5 0#5 0#16
  rw [packI_and]
  simp

theorem bne (rs rt : RegNum) (imm : Half) : Statement (.bne rs rt imm) := by
  show packI 0x05#6 rs rt imm &&& packI 63#6 0#5 0#5 0#16 =
    packI 5#6 0#5 0#5 0#16
  rw [packI_and]
  simp

theorem j (address : BitVec 26) : Statement (.j address) := by
  show packJ 0x02#6 address &&& packJ 63#6 0#26 =
    packJ 2#6 0#26
  rw [packJ_and]
  simp

theorem jal (address : BitVec 26) : Statement (.jal address) := by
  show packJ 0x03#6 address &&& packJ 63#6 0#26 =
    packJ 3#6 0#26
  rw [packJ_and]
  simp

theorem jr (rs : RegNum) : Statement (.jr rs) := by
  show packR 0x00#6 rs 0#5 0#5 0#5 0x08#6 &&& packR 63#6 0#5 31#5 31#5 31#5 63#6 =
    packR 0#6 0#5 0#5 0#5 0#5 8#6
  rw [packR_and]
  simp

theorem blez (rs : RegNum) (imm : Half) : Statement (.blez rs imm) := by
  show packI 0x06#6 rs 0#5 imm &&& packI 63#6 0#5 31#5 0#16 =
    packI 6#6 0#5 0#5 0#16
  rw [packI_and]
  simp

theorem bgtz (rs : RegNum) (imm : Half) : Statement (.bgtz rs imm) := by
  show packI 0x07#6 rs 0#5 imm &&& packI 63#6 0#5 31#5 0#16 =
    packI 7#6 0#5 0#5 0#16
  rw [packI_and]
  simp

theorem jalr (rd rs : RegNum) : Statement (.jalr rd rs) := by
  show packR 0x00#6 rs 0#5 rd 0#5 0x09#6 &&& packR 63#6 0#5 31#5 0#5 31#5 63#6 =
    packR 0#6 0#5 0#5 0#5 0#5 9#6
  rw [packR_and]
  simp

theorem lbu (rt rs : RegNum) (imm : Half) : Statement (.lbu rt rs imm) := by
  show packI 0x24#6 rs rt imm &&& packI 63#6 0#5 0#5 0#16 =
    packI 36#6 0#5 0#5 0#16
  rw [packI_and]
  simp

theorem lhu (rt rs : RegNum) (imm : Half) : Statement (.lhu rt rs imm) := by
  show packI 0x25#6 rs rt imm &&& packI 63#6 0#5 0#5 0#16 =
    packI 37#6 0#5 0#5 0#16
  rw [packI_and]
  simp

theorem ll (rt rs : RegNum) (imm : Half) : Statement (.ll rt rs imm) := by
  show packI 0x30#6 rs rt imm &&& packI 63#6 0#5 0#5 0#16 =
    packI 48#6 0#5 0#5 0#16
  rw [packI_and]
  simp

theorem lw (rt rs : RegNum) (imm : Half) : Statement (.lw rt rs imm) := by
  show packI 0x23#6 rs rt imm &&& packI 63#6 0#5 0#5 0#16 =
    packI 35#6 0#5 0#5 0#16
  rw [packI_and]
  simp

theorem sb (rt rs : RegNum) (imm : Half) : Statement (.sb rt rs imm) := by
  show packI 0x28#6 rs rt imm &&& packI 63#6 0#5 0#5 0#16 =
    packI 40#6 0#5 0#5 0#16
  rw [packI_and]
  simp

theorem sc (rt rs : RegNum) (imm : Half) : Statement (.sc rt rs imm) := by
  show packI 0x38#6 rs rt imm &&& packI 63#6 0#5 0#5 0#16 =
    packI 56#6 0#5 0#5 0#16
  rw [packI_and]
  simp

theorem sh (rt rs : RegNum) (imm : Half) : Statement (.sh rt rs imm) := by
  show packI 0x29#6 rs rt imm &&& packI 63#6 0#5 0#5 0#16 =
    packI 41#6 0#5 0#5 0#16
  rw [packI_and]
  simp

theorem sw (rt rs : RegNum) (imm : Half) : Statement (.sw rt rs imm) := by
  show packI 0x2b#6 rs rt imm &&& packI 63#6 0#5 0#5 0#16 =
    packI 43#6 0#5 0#5 0#16
  rw [packI_and]
  simp

theorem lb (rt rs : RegNum) (imm : Half) : Statement (.lb rt rs imm) := by
  show packI 0x20#6 rs rt imm &&& packI 63#6 0#5 0#5 0#16 =
    packI 32#6 0#5 0#5 0#16
  rw [packI_and]
  simp

theorem lh (rt rs : RegNum) (imm : Half) : Statement (.lh rt rs imm) := by
  show packI 0x21#6 rs rt imm &&& packI 63#6 0#5 0#5 0#16 =
    packI 33#6 0#5 0#5 0#16
  rw [packI_and]
  simp

theorem lwl (rt rs : RegNum) (imm : Half) : Statement (.lwl rt rs imm) := by
  show packI 0x22#6 rs rt imm &&& packI 63#6 0#5 0#5 0#16 =
    packI 34#6 0#5 0#5 0#16
  rw [packI_and]
  simp

theorem lwr (rt rs : RegNum) (imm : Half) : Statement (.lwr rt rs imm) := by
  show packI 0x26#6 rs rt imm &&& packI 63#6 0#5 0#5 0#16 =
    packI 38#6 0#5 0#5 0#16
  rw [packI_and]
  simp

theorem swl (rt rs : RegNum) (imm : Half) : Statement (.swl rt rs imm) := by
  show packI 0x2a#6 rs rt imm &&& packI 63#6 0#5 0#5 0#16 =
    packI 42#6 0#5 0#5 0#16
  rw [packI_and]
  simp

theorem swr (rt rs : RegNum) (imm : Half) : Statement (.swr rt rs imm) := by
  show packI 0x2e#6 rs rt imm &&& packI 63#6 0#5 0#5 0#16 =
    packI 46#6 0#5 0#5 0#16
  rw [packI_and]
  simp

theorem div (rs rt : RegNum) : Statement (.div rs rt) := by
  show packR 0x00#6 rs rt 0#5 0#5 0x1a#6 &&& packR 63#6 0#5 0#5 31#5 31#5 63#6 =
    packR 0#6 0#5 0#5 0#5 0#5 26#6
  rw [packR_and]
  simp

theorem divu (rs rt : RegNum) : Statement (.divu rs rt) := by
  show packR 0x00#6 rs rt 0#5 0#5 0x1b#6 &&& packR 63#6 0#5 0#5 31#5 31#5 63#6 =
    packR 0#6 0#5 0#5 0#5 0#5 27#6
  rw [packR_and]
  simp

theorem mfhi (rd : RegNum) : Statement (.mfhi rd) := by
  show packR 0x00#6 0#5 0#5 rd 0#5 0x10#6 &&& packR 63#6 31#5 31#5 0#5 31#5 63#6 =
    packR 0#6 0#5 0#5 0#5 0#5 16#6
  rw [packR_and]
  simp

theorem mflo (rd : RegNum) : Statement (.mflo rd) := by
  show packR 0x00#6 0#5 0#5 rd 0#5 0x12#6 &&& packR 63#6 31#5 31#5 0#5 31#5 63#6 =
    packR 0#6 0#5 0#5 0#5 0#5 18#6
  rw [packR_and]
  simp

theorem mult (rs rt : RegNum) : Statement (.mult rs rt) := by
  show packR 0x00#6 rs rt 0#5 0#5 0x18#6 &&& packR 63#6 0#5 0#5 31#5 31#5 63#6 =
    packR 0#6 0#5 0#5 0#5 0#5 24#6
  rw [packR_and]
  simp

theorem multu (rs rt : RegNum) : Statement (.multu rs rt) := by
  show packR 0x00#6 rs rt 0#5 0#5 0x19#6 &&& packR 63#6 0#5 0#5 31#5 31#5 63#6 =
    packR 0#6 0#5 0#5 0#5 0#5 25#6
  rw [packR_and]
  simp

theorem mthi (rs : RegNum) : Statement (.mthi rs) := by
  show packR 0x00#6 rs 0#5 0#5 0#5 0x11#6 &&& packR 63#6 0#5 31#5 31#5 31#5 63#6 =
    packR 0#6 0#5 0#5 0#5 0#5 17#6
  rw [packR_and]
  simp

theorem mtlo (rs : RegNum) : Statement (.mtlo rs) := by
  show packR 0x00#6 rs 0#5 0#5 0#5 0x13#6 &&& packR 63#6 0#5 31#5 31#5 31#5 63#6 =
    packR 0#6 0#5 0#5 0#5 0#5 19#6
  rw [packR_and]
  simp

theorem addS (fd fs ft : RegNum) : Statement (.addS fd fs ft) := by
  show packR 0x11#6 0x10#5 ft fs fd 0x00#6 &&& packR 63#6 31#5 0#5 0#5 0#5 63#6 =
    packR 17#6 16#5 0#5 0#5 0#5 0#6
  rw [packR_and]
  simp

theorem addD (fd fs ft : RegNum) : Statement (.addD fd fs ft) := by
  show packR 0x11#6 0x11#5 ft fs fd 0x00#6 &&& packR 63#6 31#5 0#5 0#5 0#5 63#6 =
    packR 17#6 17#5 0#5 0#5 0#5 0#6
  rw [packR_and]
  simp

theorem subS (fd fs ft : RegNum) : Statement (.subS fd fs ft) := by
  show packR 0x11#6 0x10#5 ft fs fd 0x01#6 &&& packR 63#6 31#5 0#5 0#5 0#5 63#6 =
    packR 17#6 16#5 0#5 0#5 0#5 1#6
  rw [packR_and]
  simp

theorem subD (fd fs ft : RegNum) : Statement (.subD fd fs ft) := by
  show packR 0x11#6 0x11#5 ft fs fd 0x01#6 &&& packR 63#6 31#5 0#5 0#5 0#5 63#6 =
    packR 17#6 17#5 0#5 0#5 0#5 1#6
  rw [packR_and]
  simp

theorem mulS (fd fs ft : RegNum) : Statement (.mulS fd fs ft) := by
  show packR 0x11#6 0x10#5 ft fs fd 0x02#6 &&& packR 63#6 31#5 0#5 0#5 0#5 63#6 =
    packR 17#6 16#5 0#5 0#5 0#5 2#6
  rw [packR_and]
  simp

theorem mulD (fd fs ft : RegNum) : Statement (.mulD fd fs ft) := by
  show packR 0x11#6 0x11#5 ft fs fd 0x02#6 &&& packR 63#6 31#5 0#5 0#5 0#5 63#6 =
    packR 17#6 17#5 0#5 0#5 0#5 2#6
  rw [packR_and]
  simp

theorem divS (fd fs ft : RegNum) : Statement (.divS fd fs ft) := by
  show packR 0x11#6 0x10#5 ft fs fd 0x03#6 &&& packR 63#6 31#5 0#5 0#5 0#5 63#6 =
    packR 17#6 16#5 0#5 0#5 0#5 3#6
  rw [packR_and]
  simp

theorem divD (fd fs ft : RegNum) : Statement (.divD fd fs ft) := by
  show packR 0x11#6 0x11#5 ft fs fd 0x03#6 &&& packR 63#6 31#5 0#5 0#5 0#5 63#6 =
    packR 17#6 17#5 0#5 0#5 0#5 3#6
  rw [packR_and]
  simp

theorem sqrtS (fd fs : RegNum) : Statement (.sqrtS fd fs) := by
  show packR 0x11#6 0x10#5 0#5 fs fd 0x04#6 &&& packR 63#6 31#5 31#5 0#5 0#5 63#6 =
    packR 17#6 16#5 0#5 0#5 0#5 4#6
  rw [packR_and]
  simp

theorem sqrtD (fd fs : RegNum) : Statement (.sqrtD fd fs) := by
  show packR 0x11#6 0x11#5 0#5 fs fd 0x04#6 &&& packR 63#6 31#5 31#5 0#5 0#5 63#6 =
    packR 17#6 17#5 0#5 0#5 0#5 4#6
  rw [packR_and]
  simp

theorem absS (fd fs : RegNum) : Statement (.absS fd fs) := by
  show packR 0x11#6 0x10#5 0#5 fs fd 0x05#6 &&& packR 63#6 31#5 31#5 0#5 0#5 63#6 =
    packR 17#6 16#5 0#5 0#5 0#5 5#6
  rw [packR_and]
  simp

theorem absD (fd fs : RegNum) : Statement (.absD fd fs) := by
  show packR 0x11#6 0x11#5 0#5 fs fd 0x05#6 &&& packR 63#6 31#5 31#5 0#5 0#5 63#6 =
    packR 17#6 17#5 0#5 0#5 0#5 5#6
  rw [packR_and]
  simp

theorem movS (fd fs : RegNum) : Statement (.movS fd fs) := by
  show packR 0x11#6 0x10#5 0#5 fs fd 0x06#6 &&& packR 63#6 31#5 31#5 0#5 0#5 63#6 =
    packR 17#6 16#5 0#5 0#5 0#5 6#6
  rw [packR_and]
  simp

theorem movD (fd fs : RegNum) : Statement (.movD fd fs) := by
  show packR 0x11#6 0x11#5 0#5 fs fd 0x06#6 &&& packR 63#6 31#5 31#5 0#5 0#5 63#6 =
    packR 17#6 17#5 0#5 0#5 0#5 6#6
  rw [packR_and]
  simp

theorem negS (fd fs : RegNum) : Statement (.negS fd fs) := by
  show packR 0x11#6 0x10#5 0#5 fs fd 0x07#6 &&& packR 63#6 31#5 31#5 0#5 0#5 63#6 =
    packR 17#6 16#5 0#5 0#5 0#5 7#6
  rw [packR_and]
  simp

theorem negD (fd fs : RegNum) : Statement (.negD fd fs) := by
  show packR 0x11#6 0x11#5 0#5 fs fd 0x07#6 &&& packR 63#6 31#5 31#5 0#5 0#5 63#6 =
    packR 17#6 17#5 0#5 0#5 0#5 7#6
  rw [packR_and]
  simp

theorem roundWS (fd fs : RegNum) : Statement (.roundWS fd fs) := by
  show packR 0x11#6 0x10#5 0#5 fs fd 0x0c#6 &&& packR 63#6 31#5 31#5 0#5 0#5 63#6 =
    packR 17#6 16#5 0#5 0#5 0#5 12#6
  rw [packR_and]
  simp

theorem roundWD (fd fs : RegNum) : Statement (.roundWD fd fs) := by
  show packR 0x11#6 0x11#5 0#5 fs fd 0x0c#6 &&& packR 63#6 31#5 31#5 0#5 0#5 63#6 =
    packR 17#6 17#5 0#5 0#5 0#5 12#6
  rw [packR_and]
  simp

theorem truncWS (fd fs : RegNum) : Statement (.truncWS fd fs) := by
  show packR 0x11#6 0x10#5 0#5 fs fd 0x0d#6 &&& packR 63#6 31#5 31#5 0#5 0#5 63#6 =
    packR 17#6 16#5 0#5 0#5 0#5 13#6
  rw [packR_and]
  simp

theorem truncWD (fd fs : RegNum) : Statement (.truncWD fd fs) := by
  show packR 0x11#6 0x11#5 0#5 fs fd 0x0d#6 &&& packR 63#6 31#5 31#5 0#5 0#5 63#6 =
    packR 17#6 17#5 0#5 0#5 0#5 13#6
  rw [packR_and]
  simp

theorem ceilWS (fd fs : RegNum) : Statement (.ceilWS fd fs) := by
  show packR 0x11#6 0x10#5 0#5 fs fd 0x0e#6 &&& packR 63#6 31#5 31#5 0#5 0#5 63#6 =
    packR 17#6 16#5 0#5 0#5 0#5 14#6
  rw [packR_and]
  simp

theorem ceilWD (fd fs : RegNum) : Statement (.ceilWD fd fs) := by
  show packR 0x11#6 0x11#5 0#5 fs fd 0x0e#6 &&& packR 63#6 31#5 31#5 0#5 0#5 63#6 =
    packR 17#6 17#5 0#5 0#5 0#5 14#6
  rw [packR_and]
  simp

theorem floorWS (fd fs : RegNum) : Statement (.floorWS fd fs) := by
  show packR 0x11#6 0x10#5 0#5 fs fd 0x0f#6 &&& packR 63#6 31#5 31#5 0#5 0#5 63#6 =
    packR 17#6 16#5 0#5 0#5 0#5 15#6
  rw [packR_and]
  simp

theorem floorWD (fd fs : RegNum) : Statement (.floorWD fd fs) := by
  show packR 0x11#6 0x11#5 0#5 fs fd 0x0f#6 &&& packR 63#6 31#5 31#5 0#5 0#5 63#6 =
    packR 17#6 17#5 0#5 0#5 0#5 15#6
  rw [packR_and]
  simp

theorem movzS (fd fs rt : RegNum) : Statement (.movzS fd fs rt) := by
  show packR 0x11#6 0x10#5 rt fs fd 0x12#6 &&& packR 63#6 31#5 0#5 0#5 0#5 63#6 =
    packR 17#6 16#5 0#5 0#5 0#5 18#6
  rw [packR_and]
  simp

theorem movzD (fd fs rt : RegNum) : Statement (.movzD fd fs rt) := by
  show packR 0x11#6 0x11#5 rt fs fd 0x12#6 &&& packR 63#6 31#5 0#5 0#5 0#5 63#6 =
    packR 17#6 17#5 0#5 0#5 0#5 18#6
  rw [packR_and]
  simp

theorem movnS (fd fs rt : RegNum) : Statement (.movnS fd fs rt) := by
  show packR 0x11#6 0x10#5 rt fs fd 0x13#6 &&& packR 63#6 31#5 0#5 0#5 0#5 63#6 =
    packR 17#6 16#5 0#5 0#5 0#5 19#6
  rw [packR_and]
  simp

theorem movnD (fd fs rt : RegNum) : Statement (.movnD fd fs rt) := by
  show packR 0x11#6 0x11#5 rt fs fd 0x13#6 &&& packR 63#6 31#5 0#5 0#5 0#5 63#6 =
    packR 17#6 17#5 0#5 0#5 0#5 19#6
  rw [packR_and]
  simp

theorem cvtSD (fd fs : RegNum) : Statement (.cvtSD fd fs) := by
  show packR 0x11#6 0x11#5 0#5 fs fd 0x20#6 &&& packR 63#6 31#5 31#5 0#5 0#5 63#6 =
    packR 17#6 17#5 0#5 0#5 0#5 32#6
  rw [packR_and]
  simp

theorem cvtDS (fd fs : RegNum) : Statement (.cvtDS fd fs) := by
  show packR 0x11#6 0x10#5 0#5 fs fd 0x21#6 &&& packR 63#6 31#5 31#5 0#5 0#5 63#6 =
    packR 17#6 16#5 0#5 0#5 0#5 33#6
  rw [packR_and]
  simp

theorem cvtWS (fd fs : RegNum) : Statement (.cvtWS fd fs) := by
  show packR 0x11#6 0x10#5 0#5 fs fd 0x24#6 &&& packR 63#6 31#5 31#5 0#5 0#5 63#6 =
    packR 17#6 16#5 0#5 0#5 0#5 36#6
  rw [packR_and]
  simp

theorem cvtWD (fd fs : RegNum) : Statement (.cvtWD fd fs) := by
  show packR 0x11#6 0x11#5 0#5 fs fd 0x24#6 &&& packR 63#6 31#5 31#5 0#5 0#5 63#6 =
    packR 17#6 17#5 0#5 0#5 0#5 36#6
  rw [packR_and]
  simp

theorem cvtSS (fd fs : RegNum) : Statement (.cvtSS fd fs) := by
  show packR 0x11#6 0x10#5 0#5 fs fd 0x20#6 &&& packR 63#6 31#5 31#5 0#5 0#5 63#6 =
    packR 17#6 16#5 0#5 0#5 0#5 32#6
  rw [packR_and]
  simp

theorem cvtDD (fd fs : RegNum) : Statement (.cvtDD fd fs) := by
  show packR 0x11#6 0x11#5 0#5 fs fd 0x21#6 &&& packR 63#6 31#5 31#5 0#5 0#5 63#6 =
    packR 17#6 17#5 0#5 0#5 0#5 33#6
  rw [packR_and]
  simp

theorem cFS (fs ft : RegNum) : Statement (.cFS fs ft) := by
  show packR 0x11#6 0x10#5 ft fs 0#5 0x30#6 &&& packR 63#6 31#5 0#5 0#5 31#5 63#6 =
    packR 17#6 16#5 0#5 0#5 0#5 48#6
  rw [packR_and]
  simp

theorem cFD (fs ft : RegNum) : Statement (.cFD fs ft) := by
  show packR 0x11#6 0x11#5 ft fs 0#5 0x30#6 &&& packR 63#6 31#5 0#5 0#5 31#5 63#6 =
    packR 17#6 17#5 0#5 0#5 0#5 48#6
  rw [packR_and]
  simp

theorem cUnS (fs ft : RegNum) : Statement (.cUnS fs ft) := by
  show packR 0x11#6 0x10#5 ft fs 0#5 0x31#6 &&& packR 63#6 31#5 0#5 0#5 31#5 63#6 =
    packR 17#6 16#5 0#5 0#5 0#5 49#6
  rw [packR_and]
  simp

theorem cUnD (fs ft : RegNum) : Statement (.cUnD fs ft) := by
  show packR 0x11#6 0x11#5 ft fs 0#5 0x31#6 &&& packR 63#6 31#5 0#5 0#5 31#5 63#6 =
    packR 17#6 17#5 0#5 0#5 0#5 49#6
  rw [packR_and]
  simp

theorem cEqS (fs ft : RegNum) : Statement (.cEqS fs ft) := by
  show packR 0x11#6 0x10#5 ft fs 0#5 0x32#6 &&& packR 63#6 31#5 0#5 0#5 31#5 63#6 =
    packR 17#6 16#5 0#5 0#5 0#5 50#6
  rw [packR_and]
  simp

theorem cEqD (fs ft : RegNum) : Statement (.cEqD fs ft) := by
  show packR 0x11#6 0x11#5 ft fs 0#5 0x32#6 &&& packR 63#6 31#5 0#5 0#5 31#5 63#6 =
    packR 17#6 17#5 0#5 0#5 0#5 50#6
  rw [packR_and]
  simp

theorem cUeqS (fs ft : RegNum) : Statement (.cUeqS fs ft) := by
  show packR 0x11#6 0x10#5 ft fs 0#5 0x33#6 &&& packR 63#6 31#5 0#5 0#5 31#5 63#6 =
    packR 17#6 16#5 0#5 0#5 0#5 51#6
  rw [packR_and]
  simp

theorem cUeqD (fs ft : RegNum) : Statement (.cUeqD fs ft) := by
  show packR 0x11#6 0x11#5 ft fs 0#5 0x33#6 &&& packR 63#6 31#5 0#5 0#5 31#5 63#6 =
    packR 17#6 17#5 0#5 0#5 0#5 51#6
  rw [packR_and]
  simp

theorem cOltS (fs ft : RegNum) : Statement (.cOltS fs ft) := by
  show packR 0x11#6 0x10#5 ft fs 0#5 0x34#6 &&& packR 63#6 31#5 0#5 0#5 31#5 63#6 =
    packR 17#6 16#5 0#5 0#5 0#5 52#6
  rw [packR_and]
  simp

theorem cOltD (fs ft : RegNum) : Statement (.cOltD fs ft) := by
  show packR 0x11#6 0x11#5 ft fs 0#5 0x34#6 &&& packR 63#6 31#5 0#5 0#5 31#5 63#6 =
    packR 17#6 17#5 0#5 0#5 0#5 52#6
  rw [packR_and]
  simp

theorem cUltS (fs ft : RegNum) : Statement (.cUltS fs ft) := by
  show packR 0x11#6 0x10#5 ft fs 0#5 0x35#6 &&& packR 63#6 31#5 0#5 0#5 31#5 63#6 =
    packR 17#6 16#5 0#5 0#5 0#5 53#6
  rw [packR_and]
  simp

theorem cUltD (fs ft : RegNum) : Statement (.cUltD fs ft) := by
  show packR 0x11#6 0x11#5 ft fs 0#5 0x35#6 &&& packR 63#6 31#5 0#5 0#5 31#5 63#6 =
    packR 17#6 17#5 0#5 0#5 0#5 53#6
  rw [packR_and]
  simp

theorem cOleS (fs ft : RegNum) : Statement (.cOleS fs ft) := by
  show packR 0x11#6 0x10#5 ft fs 0#5 0x36#6 &&& packR 63#6 31#5 0#5 0#5 31#5 63#6 =
    packR 17#6 16#5 0#5 0#5 0#5 54#6
  rw [packR_and]
  simp

theorem cOleD (fs ft : RegNum) : Statement (.cOleD fs ft) := by
  show packR 0x11#6 0x11#5 ft fs 0#5 0x36#6 &&& packR 63#6 31#5 0#5 0#5 31#5 63#6 =
    packR 17#6 17#5 0#5 0#5 0#5 54#6
  rw [packR_and]
  simp

theorem cUleS (fs ft : RegNum) : Statement (.cUleS fs ft) := by
  show packR 0x11#6 0x10#5 ft fs 0#5 0x37#6 &&& packR 63#6 31#5 0#5 0#5 31#5 63#6 =
    packR 17#6 16#5 0#5 0#5 0#5 55#6
  rw [packR_and]
  simp

theorem cUleD (fs ft : RegNum) : Statement (.cUleD fs ft) := by
  show packR 0x11#6 0x11#5 ft fs 0#5 0x37#6 &&& packR 63#6 31#5 0#5 0#5 31#5 63#6 =
    packR 17#6 17#5 0#5 0#5 0#5 55#6
  rw [packR_and]
  simp

theorem cSfS (fs ft : RegNum) : Statement (.cSfS fs ft) := by
  show packR 0x11#6 0x10#5 ft fs 0#5 0x38#6 &&& packR 63#6 31#5 0#5 0#5 31#5 63#6 =
    packR 17#6 16#5 0#5 0#5 0#5 56#6
  rw [packR_and]
  simp

theorem cSfD (fs ft : RegNum) : Statement (.cSfD fs ft) := by
  show packR 0x11#6 0x11#5 ft fs 0#5 0x38#6 &&& packR 63#6 31#5 0#5 0#5 31#5 63#6 =
    packR 17#6 17#5 0#5 0#5 0#5 56#6
  rw [packR_and]
  simp

theorem cNgleS (fs ft : RegNum) : Statement (.cNgleS fs ft) := by
  show packR 0x11#6 0x10#5 ft fs 0#5 0x39#6 &&& packR 63#6 31#5 0#5 0#5 31#5 63#6 =
    packR 17#6 16#5 0#5 0#5 0#5 57#6
  rw [packR_and]
  simp

theorem cNgleD (fs ft : RegNum) : Statement (.cNgleD fs ft) := by
  show packR 0x11#6 0x11#5 ft fs 0#5 0x39#6 &&& packR 63#6 31#5 0#5 0#5 31#5 63#6 =
    packR 17#6 17#5 0#5 0#5 0#5 57#6
  rw [packR_and]
  simp

theorem cSeqS (fs ft : RegNum) : Statement (.cSeqS fs ft) := by
  show packR 0x11#6 0x10#5 ft fs 0#5 0x3a#6 &&& packR 63#6 31#5 0#5 0#5 31#5 63#6 =
    packR 17#6 16#5 0#5 0#5 0#5 58#6
  rw [packR_and]
  simp

theorem cSeqD (fs ft : RegNum) : Statement (.cSeqD fs ft) := by
  show packR 0x11#6 0x11#5 ft fs 0#5 0x3a#6 &&& packR 63#6 31#5 0#5 0#5 31#5 63#6 =
    packR 17#6 17#5 0#5 0#5 0#5 58#6
  rw [packR_and]
  simp

theorem cNglS (fs ft : RegNum) : Statement (.cNglS fs ft) := by
  show packR 0x11#6 0x10#5 ft fs 0#5 0x3b#6 &&& packR 63#6 31#5 0#5 0#5 31#5 63#6 =
    packR 17#6 16#5 0#5 0#5 0#5 59#6
  rw [packR_and]
  simp

theorem cNglD (fs ft : RegNum) : Statement (.cNglD fs ft) := by
  show packR 0x11#6 0x11#5 ft fs 0#5 0x3b#6 &&& packR 63#6 31#5 0#5 0#5 31#5 63#6 =
    packR 17#6 17#5 0#5 0#5 0#5 59#6
  rw [packR_and]
  simp

theorem cLtS (fs ft : RegNum) : Statement (.cLtS fs ft) := by
  show packR 0x11#6 0x10#5 ft fs 0#5 0x3c#6 &&& packR 63#6 31#5 0#5 0#5 31#5 63#6 =
    packR 17#6 16#5 0#5 0#5 0#5 60#6
  rw [packR_and]
  simp

theorem cLtD (fs ft : RegNum) : Statement (.cLtD fs ft) := by
  show packR 0x11#6 0x11#5 ft fs 0#5 0x3c#6 &&& packR 63#6 31#5 0#5 0#5 31#5 63#6 =
    packR 17#6 17#5 0#5 0#5 0#5 60#6
  rw [packR_and]
  simp

theorem cNgeS (fs ft : RegNum) : Statement (.cNgeS fs ft) := by
  show packR 0x11#6 0x10#5 ft fs 0#5 0x3d#6 &&& packR 63#6 31#5 0#5 0#5 31#5 63#6 =
    packR 17#6 16#5 0#5 0#5 0#5 61#6
  rw [packR_and]
  simp

theorem cNgeD (fs ft : RegNum) : Statement (.cNgeD fs ft) := by
  show packR 0x11#6 0x11#5 ft fs 0#5 0x3d#6 &&& packR 63#6 31#5 0#5 0#5 31#5 63#6 =
    packR 17#6 17#5 0#5 0#5 0#5 61#6
  rw [packR_and]
  simp

theorem cLeS (fs ft : RegNum) : Statement (.cLeS fs ft) := by
  show packR 0x11#6 0x10#5 ft fs 0#5 0x3e#6 &&& packR 63#6 31#5 0#5 0#5 31#5 63#6 =
    packR 17#6 16#5 0#5 0#5 0#5 62#6
  rw [packR_and]
  simp

theorem cLeD (fs ft : RegNum) : Statement (.cLeD fs ft) := by
  show packR 0x11#6 0x11#5 ft fs 0#5 0x3e#6 &&& packR 63#6 31#5 0#5 0#5 31#5 63#6 =
    packR 17#6 17#5 0#5 0#5 0#5 62#6
  rw [packR_and]
  simp

theorem cNgtS (fs ft : RegNum) : Statement (.cNgtS fs ft) := by
  show packR 0x11#6 0x10#5 ft fs 0#5 0x3f#6 &&& packR 63#6 31#5 0#5 0#5 31#5 63#6 =
    packR 17#6 16#5 0#5 0#5 0#5 63#6
  rw [packR_and]
  simp

theorem cNgtD (fs ft : RegNum) : Statement (.cNgtD fs ft) := by
  show packR 0x11#6 0x11#5 ft fs 0#5 0x3f#6 &&& packR 63#6 31#5 0#5 0#5 31#5 63#6 =
    packR 17#6 17#5 0#5 0#5 0#5 63#6
  rw [packR_and]
  simp

theorem lwc1 (ft rs : RegNum) (imm : Half) : Statement (.lwc1 ft rs imm) := by
  show packI 0x31#6 rs ft imm &&& packI 63#6 0#5 0#5 0#16 =
    packI 49#6 0#5 0#5 0#16
  rw [packI_and]
  simp

theorem ldc1 (ft rs : RegNum) (imm : Half) : Statement (.ldc1 ft rs imm) := by
  show packI 0x35#6 rs ft imm &&& packI 63#6 0#5 0#5 0#16 =
    packI 53#6 0#5 0#5 0#16
  rw [packI_and]
  simp

theorem swc1 (ft rs : RegNum) (imm : Half) : Statement (.swc1 ft rs imm) := by
  show packI 0x39#6 rs ft imm &&& packI 63#6 0#5 0#5 0#16 =
    packI 57#6 0#5 0#5 0#16
  rw [packI_and]
  simp

theorem sdc1 (ft rs : RegNum) (imm : Half) : Statement (.sdc1 ft rs imm) := by
  show packI 0x3d#6 rs ft imm &&& packI 63#6 0#5 0#5 0#16 =
    packI 61#6 0#5 0#5 0#16
  rw [packI_and]
  simp

theorem bc1t (imm : Half) : Statement (.bc1t imm) := by
  show packI 0x11#6 8#5 1#5 imm &&& packI 63#6 31#5 31#5 0#16 =
    packI 17#6 8#5 1#5 0#16
  rw [packI_and]
  simp

theorem bc1f (imm : Half) : Statement (.bc1f imm) := by
  show packI 0x11#6 8#5 0#5 imm &&& packI 63#6 31#5 31#5 0#16 =
    packI 17#6 8#5 0#5 0#16
  rw [packI_and]
  simp

theorem mfc0 (rt rd : RegNum) : Statement (.mfc0 rt rd) := by
  show packR 0x10#6 0#5 rt rd 0#5 0x00#6 &&& packR 63#6 31#5 0#5 0#5 31#5 63#6 =
    packR 16#6 0#5 0#5 0#5 0#5 0#6
  rw [packR_and]
  simp

theorem mtc0 (rt rd : RegNum) : Statement (.mtc0 rt rd) := by
  show packR 0x10#6 4#5 rt rd 0#5 0x00#6 &&& packR 63#6 31#5 0#5 0#5 31#5 63#6 =
    packR 16#6 4#5 0#5 0#5 0#5 0#6
  rw [packR_and]
  simp

theorem eret : Statement (.eret) := by
  show packR 0x10#6 0x10#5 0#5 0#5 0#5 0x18#6 &&& packR 63#6 31#5 31#5 31#5 31#5 63#6 =
    packR 16#6 16#5 0#5 0#5 0#5 24#6
  rw [packR_and]
  simp

theorem syscall (code : BitVec 20) : Statement (.syscall code) := by
  show packCode code 0x0c#6 &&& (0x3f#6 ++ 0#20 ++ 63#6 : Word) =
    packCode 0#20 12#6
  rw [packCode_and]
  simp

theorem brk (code : BitVec 20) : Statement (.brk code) := by
  show packCode code 0x0d#6 &&& (0x3f#6 ++ 0#20 ++ 63#6 : Word) =
    packCode 0#20 13#6
  rw [packCode_and]
  simp

theorem sync : Statement (.sync) := by
  show packR 0x00#6 0#5 0#5 0#5 0#5 0x0f#6 &&& packR 63#6 31#5 31#5 31#5 31#5 63#6 =
    packR 0#6 0#5 0#5 0#5 0#5 15#6
  rw [packR_and]
  simp

theorem tge (rs rt : RegNum) (code : BitVec 10) : Statement (.tge rs rt code) := by
  show packTrap rs rt code 0x30#6 &&& (0x3f#6 ++ 0#5 ++ 0#5 ++ 0#10 ++ 63#6 : Word) =
    packTrap 0#5 0#5 0#10 48#6
  rw [packTrap_and]
  simp

theorem tgeu (rs rt : RegNum) (code : BitVec 10) : Statement (.tgeu rs rt code) := by
  show packTrap rs rt code 0x31#6 &&& (0x3f#6 ++ 0#5 ++ 0#5 ++ 0#10 ++ 63#6 : Word) =
    packTrap 0#5 0#5 0#10 49#6
  rw [packTrap_and]
  simp

theorem tlt (rs rt : RegNum) (code : BitVec 10) : Statement (.tlt rs rt code) := by
  show packTrap rs rt code 0x32#6 &&& (0x3f#6 ++ 0#5 ++ 0#5 ++ 0#10 ++ 63#6 : Word) =
    packTrap 0#5 0#5 0#10 50#6
  rw [packTrap_and]
  simp

theorem tltu (rs rt : RegNum) (code : BitVec 10) : Statement (.tltu rs rt code) := by
  show packTrap rs rt code 0x33#6 &&& (0x3f#6 ++ 0#5 ++ 0#5 ++ 0#10 ++ 63#6 : Word) =
    packTrap 0#5 0#5 0#10 51#6
  rw [packTrap_and]
  simp

theorem teq (rs rt : RegNum) (code : BitVec 10) : Statement (.teq rs rt code) := by
  show packTrap rs rt code 0x34#6 &&& (0x3f#6 ++ 0#5 ++ 0#5 ++ 0#10 ++ 63#6 : Word) =
    packTrap 0#5 0#5 0#10 52#6
  rw [packTrap_and]
  simp

theorem tne (rs rt : RegNum) (code : BitVec 10) : Statement (.tne rs rt code) := by
  show packTrap rs rt code 0x36#6 &&& (0x3f#6 ++ 0#5 ++ 0#5 ++ 0#10 ++ 63#6 : Word) =
    packTrap 0#5 0#5 0#10 54#6
  rw [packTrap_and]
  simp

theorem cache (op : BitVec 5) (rs : RegNum) (imm : Half) : Statement (.cache op rs imm) := by
  show packI 0x2f#6 rs op imm &&& packI 63#6 0#5 0#5 0#16 =
    packI 47#6 0#5 0#5 0#16
  rw [packI_and]
  simp

theorem pref (hint : BitVec 5) (rs : RegNum) (imm : Half) : Statement (.pref hint rs imm) := by
  show packI 0x33#6 rs hint imm &&& packI 63#6 0#5 0#5 0#16 =
    packI 51#6 0#5 0#5 0#16
  rw [packI_and]
  simp

theorem lwc2 (rt rs : RegNum) (imm : Half) : Statement (.lwc2 rt rs imm) := by
  show packI 0x32#6 rs rt imm &&& packI 63#6 0#5 0#5 0#16 =
    packI 50#6 0#5 0#5 0#16
  rw [packI_and]
  simp

theorem ldc2 (rt rs : RegNum) (imm : Half) : Statement (.ldc2 rt rs imm) := by
  show packI 0x36#6 rs rt imm &&& packI 63#6 0#5 0#5 0#16 =
    packI 54#6 0#5 0#5 0#16
  rw [packI_and]
  simp

theorem swc2 (rt rs : RegNum) (imm : Half) : Statement (.swc2 rt rs imm) := by
  show packI 0x3a#6 rs rt imm &&& packI 63#6 0#5 0#5 0#16 =
    packI 58#6 0#5 0#5 0#16
  rw [packI_and]
  simp

theorem sdc2 (rt rs : RegNum) (imm : Half) : Statement (.sdc2 rt rs imm) := by
  show packI 0x3e#6 rs rt imm &&& packI 63#6 0#5 0#5 0#16 =
    packI 62#6 0#5 0#5 0#16
  rw [packI_and]
  simp

end Sys2Proof.Laws.TableRow
end

