-- ==== Sys2Proof/Tests/Slice0.lean ====
section
/-! SUPPORT. The model's own tests: an ill-formed term for every check of WellFormed, a word written out for every
constructor, one step of each instruction on values of spec/95_test_vectors.md, and for every statement with hypotheses
a concrete state and operands that meet them. -/

namespace Sys2Proof.Machine

/-! ### Helpers -/

/-- The bytes `base .. base + 0xFFFF`, for every access. -/
def testRegion (base : Nat) : Region := ⟨base, 0x10000, true, true, true, Config.accessWidths⟩

/-- The platform of 95_test_vectors.md section 2. -/
def testPlatform : Platform :=
  { Config.platformDefault with
    scMayFail := false
    mapped := [testRegion 0x00400000, testRegion 0x10010000, testRegion 0x80000000] }

/-- The state before each row of 95_test_vectors.md section 2. -/
def start : State := { State.reset with pc := 0x00400000#32, npc := 0x00400004#32, plat := testPlatform }

/-- General registers set. -/
def State.withX (s : State) (l : List (RegNum × Word)) : State := l.foldl (fun s p => s.setX p.1 p.2) s

/-- Floating-point registers set. -/
def State.withF (s : State) (l : List (RegNum × Word)) : State := l.foldl (fun s p => s.setF p.1 p.2) s

/-- Doubles set. -/
def State.withD (s : State) (l : List (RegNum × Dword)) : State := l.foldl (fun s p => s.setFd64 p.1 p.2) s

/-- The sixteen bytes of 95_test_vectors.md section 2.3. -/
def State.withData (s : State) : State :=
  s.placeBytes 0x10010000#32
    (wordBytes 0x11223344#32 ++ wordBytes 0x55667788#32 ++ wordBytes 0x99AABBCC#32 ++ wordBytes 0x80FF7F01#32)

/-- The listed bytes at rising addresses. -/
def State.bytesFrom (s : State) (a : Word) (n : Nat) : List Byte :=
  (List.range n).map (fun i => s.byte (a + BitVec.ofNat 32 i))

/-- The state after the instruction that a word decodes to. -/
def ran (w : Word) (s : State) : Option State :=
  match decode w with
  | .instr i =>
    match exec i s with
    | .next t => some t
    | .fault _ => none
    | .refused _ => none
  | .unassigned => none
  | .mustBeZero => none

/-- The state after a step. -/
def stepped (s : State) : Option State :=
  match step s with
  | .next t => some t
  | .fault _ => none
  | .refused _ => none

/-- The reason for which a step is refused. -/
def stopped (s : State) : Option Refusal :=
  match step s with
  | .next _ => none
  | .fault _ => none
  | .refused r => some r

/-- The state with a word placed at the `pc`. -/
def State.placed (s : State) (w : Word) : State := s.withFetchWord 32 w.toNat

/-- `FPcond` after a compare of singles in registers 0 and 1. -/
def comparedS (w a b : Word) (before : Bool) : Option Bool :=
  (ran w { start.withF [(0#5, a), (1#5, b)] with fpcond := before }).map (fun t => t.fpcond)

/-- `FPcond` after a compare of doubles in registers 0 and 2. -/
def comparedD (w : Word) (a b : Dword) (before : Bool) : Option Bool :=
  (ran w { start.withD [(0#5, a), (2#5, b)] with fpcond := before }).map (fun t => t.fpcond)

/-! ### WellFormed: an ill-formed term for every check -/

theorem test_wellFormed_refuses_odd_double : wellFormed (.addD 4#5 0#5 3#5) = false := by decide
theorem test_wellFormed_refuses_odd_pair_loaded : wellFormed (.ldc1 1#5 9#5 0#16) = false := by decide
theorem test_wellFormed_refuses_jalr_link_is_target : wellFormed (.jalr 9#5 9#5) = false := by decide
theorem test_wellFormed_refuses_undescribed_control : wellFormed (.mtc0 8#5 11#5) = false := by decide
theorem test_wellFormed_accepts :
    wellFormed (.addD 4#5 0#5 2#5) = true ∧ wellFormed (.jalr 0#5 0#5) = true ∧ wellFormed (.mfc0 8#5 14#5) = true := by
  decide

/-! ### Decoding: every constructor's word, its bits written out from the encoding its rule prints, with operands
rs = 9, rt = 10, rd = 8 (floating-point 2, 4, 6), shamt = 4, immediate 0xFFF8 -/

theorem test_decode_integer_alu :
    decode 0x012A4020#32 = .instr (.add 8#5 9#5 10#5) ∧
    decode 0x212AFFF8#32 = .instr (.addi 10#5 9#5 0xFFF8#16) ∧
    decode 0x252AFFF8#32 = .instr (.addiu 10#5 9#5 0xFFF8#16) ∧
    decode 0x012A4021#32 = .instr (.addu 8#5 9#5 10#5) ∧
    decode 0x012A4024#32 = .instr (.and 8#5 9#5 10#5) ∧
    decode 0x312AFFF8#32 = .instr (.andi 10#5 9#5 0xFFF8#16) ∧
    decode 0x3C0AFFF8#32 = .instr (.lui 10#5 0xFFF8#16) ∧
    decode 0x012A4027#32 = .instr (.nor 8#5 9#5 10#5) ∧
    decode 0x012A4025#32 = .instr (.or 8#5 9#5 10#5) ∧
    decode 0x352AFFF8#32 = .instr (.ori 10#5 9#5 0xFFF8#16) ∧
    decode 0x012A402A#32 = .instr (.slt 8#5 9#5 10#5) ∧
    decode 0x292AFFF8#32 = .instr (.slti 10#5 9#5 0xFFF8#16) ∧
    decode 0x2D2AFFF8#32 = .instr (.sltiu 10#5 9#5 0xFFF8#16) ∧
    decode 0x012A402B#32 = .instr (.sltu 8#5 9#5 10#5) ∧
    decode 0x000A4100#32 = .instr (.sll 8#5 10#5 4#5) ∧
    decode 0x000A4102#32 = .instr (.srl 8#5 10#5 4#5) ∧
    decode 0x012A4022#32 = .instr (.sub 8#5 9#5 10#5) ∧
    decode 0x012A4023#32 = .instr (.subu 8#5 9#5 10#5) ∧
    decode 0x000A4103#32 = .instr (.sra 8#5 10#5 4#5) ∧
    decode 0x012A4026#32 = .instr (.xor 8#5 9#5 10#5) ∧
    decode 0x392AFFF8#32 = .instr (.xori 10#5 9#5 0xFFF8#16) ∧
    decode 0x012A4004#32 = .instr (.sllv 8#5 10#5 9#5) ∧
    decode 0x012A4006#32 = .instr (.srlv 8#5 10#5 9#5) ∧
    decode 0x012A4007#32 = .instr (.srav 8#5 10#5 9#5) ∧
    decode 0x012A400A#32 = .instr (.movz 8#5 9#5 10#5) ∧
    decode 0x012A400B#32 = .instr (.movn 8#5 9#5 10#5) := by decide

theorem test_decode_control_transfer :
    decode 0x112AFFF8#32 = .instr (.beq 9#5 10#5 0xFFF8#16) ∧
    decode 0x152AFFF8#32 = .instr (.bne 9#5 10#5 0xFFF8#16) ∧
    decode 0x08100008#32 = .instr (.j 0x100008#26) ∧
    decode 0x0C100008#32 = .instr (.jal 0x100008#26) ∧
    decode 0x01200008#32 = .instr (.jr 9#5) ∧
    decode 0x1920FFF8#32 = .instr (.blez 9#5 0xFFF8#16) ∧
    decode 0x1D20FFF8#32 = .instr (.bgtz 9#5 0xFFF8#16) ∧
    decode 0x01204009#32 = .instr (.jalr 8#5 9#5) := by decide

theorem test_decode_load_store :
    decode 0x912AFFF8#32 = .instr (.lbu 10#5 9#5 0xFFF8#16) ∧
    decode 0x952AFFF8#32 = .instr (.lhu 10#5 9#5 0xFFF8#16) ∧
    decode 0xC12AFFF8#32 = .instr (.ll 10#5 9#5 0xFFF8#16) ∧
    decode 0x8D2AFFF8#32 = .instr (.lw 10#5 9#5 0xFFF8#16) ∧
    decode 0xA12AFFF8#32 = .instr (.sb 10#5 9#5 0xFFF8#16) ∧
    decode 0xE12AFFF8#32 = .instr (.sc 10#5 9#5 0xFFF8#16) ∧
    decode 0xA52AFFF8#32 = .instr (.sh 10#5 9#5 0xFFF8#16) ∧
    decode 0xAD2AFFF8#32 = .instr (.sw 10#5 9#5 0xFFF8#16) ∧
    decode 0x812AFFF8#32 = .instr (.lb 10#5 9#5 0xFFF8#16) ∧
    decode 0x852AFFF8#32 = .instr (.lh 10#5 9#5 0xFFF8#16) ∧
    decode 0x892AFFF8#32 = .instr (.lwl 10#5 9#5 0xFFF8#16) ∧
    decode 0x992AFFF8#32 = .instr (.lwr 10#5 9#5 0xFFF8#16) ∧
    decode 0xA92AFFF8#32 = .instr (.swl 10#5 9#5 0xFFF8#16) ∧
    decode 0xB92AFFF8#32 = .instr (.swr 10#5 9#5 0xFFF8#16) := by decide

theorem test_decode_muldiv :
    decode 0x012A001A#32 = .instr (.div 9#5 10#5) ∧
    decode 0x012A001B#32 = .instr (.divu 9#5 10#5) ∧
    decode 0x00004010#32 = .instr (.mfhi 8#5) ∧
    decode 0x00004012#32 = .instr (.mflo 8#5) ∧
    decode 0x012A0018#32 = .instr (.mult 9#5 10#5) ∧
    decode 0x012A0019#32 = .instr (.multu 9#5 10#5) ∧
    decode 0x01200011#32 = .instr (.mthi 9#5) ∧
    decode 0x01200013#32 = .instr (.mtlo 9#5) := by decide

theorem test_decode_floating_point_1 :
    decode 0x46041180#32 = .instr (.addS 6#5 2#5 4#5) ∧
    decode 0x46241180#32 = .instr (.addD 6#5 2#5 4#5) ∧
    decode 0x46041181#32 = .instr (.subS 6#5 2#5 4#5) ∧
    decode 0x46241181#32 = .instr (.subD 6#5 2#5 4#5) ∧
    decode 0x46041182#32 = .instr (.mulS 6#5 2#5 4#5) ∧
    decode 0x46241182#32 = .instr (.mulD 6#5 2#5 4#5) ∧
    decode 0x46041183#32 = .instr (.divS 6#5 2#5 4#5) ∧
    decode 0x46241183#32 = .instr (.divD 6#5 2#5 4#5) ∧
    decode 0x46001184#32 = .instr (.sqrtS 6#5 2#5) ∧
    decode 0x46201184#32 = .instr (.sqrtD 6#5 2#5) ∧
    decode 0x46001185#32 = .instr (.absS 6#5 2#5) ∧
    decode 0x46201185#32 = .instr (.absD 6#5 2#5) ∧
    decode 0x46001186#32 = .instr (.movS 6#5 2#5) ∧
    decode 0x46201186#32 = .instr (.movD 6#5 2#5) ∧
    decode 0x46001187#32 = .instr (.negS 6#5 2#5) ∧
    decode 0x46201187#32 = .instr (.negD 6#5 2#5) ∧
    decode 0x4600118C#32 = .instr (.roundWS 6#5 2#5) ∧
    decode 0x4620118C#32 = .instr (.roundWD 6#5 2#5) ∧
    decode 0x4600118D#32 = .instr (.truncWS 6#5 2#5) ∧
    decode 0x4620118D#32 = .instr (.truncWD 6#5 2#5) ∧
    decode 0x4600118E#32 = .instr (.ceilWS 6#5 2#5) ∧
    decode 0x4620118E#32 = .instr (.ceilWD 6#5 2#5) ∧
    decode 0x4600118F#32 = .instr (.floorWS 6#5 2#5) ∧
    decode 0x4620118F#32 = .instr (.floorWD 6#5 2#5) ∧
    decode 0x46041192#32 = .instr (.movzS 6#5 2#5 4#5) ∧
    decode 0x46241192#32 = .instr (.movzD 6#5 2#5 4#5) ∧
    decode 0x46041193#32 = .instr (.movnS 6#5 2#5 4#5) ∧
    decode 0x46241193#32 = .instr (.movnD 6#5 2#5 4#5) := by decide

theorem test_decode_floating_point_2 :
    decode 0x462011A0#32 = .instr (.cvtSD 6#5 2#5) ∧
    decode 0x460011A1#32 = .instr (.cvtDS 6#5 2#5) ∧
    decode 0x460011A4#32 = .instr (.cvtWS 6#5 2#5) ∧
    decode 0x462011A4#32 = .instr (.cvtWD 6#5 2#5) ∧
    decode 0x460011A0#32 = .instr (.cvtSS 6#5 2#5) ∧
    decode 0x462011A1#32 = .instr (.cvtDD 6#5 2#5) ∧
    decode 0x46041030#32 = .instr (.cFS 2#5 4#5) ∧
    decode 0x46241030#32 = .instr (.cFD 2#5 4#5) ∧
    decode 0x46041031#32 = .instr (.cUnS 2#5 4#5) ∧
    decode 0x46241031#32 = .instr (.cUnD 2#5 4#5) ∧
    decode 0x46041032#32 = .instr (.cEqS 2#5 4#5) ∧
    decode 0x46241032#32 = .instr (.cEqD 2#5 4#5) ∧
    decode 0x46041033#32 = .instr (.cUeqS 2#5 4#5) ∧
    decode 0x46241033#32 = .instr (.cUeqD 2#5 4#5) ∧
    decode 0x46041034#32 = .instr (.cOltS 2#5 4#5) ∧
    decode 0x46241034#32 = .instr (.cOltD 2#5 4#5) ∧
    decode 0x46041035#32 = .instr (.cUltS 2#5 4#5) ∧
    decode 0x46241035#32 = .instr (.cUltD 2#5 4#5) ∧
    decode 0x46041036#32 = .instr (.cOleS 2#5 4#5) ∧
    decode 0x46241036#32 = .instr (.cOleD 2#5 4#5) ∧
    decode 0x46041037#32 = .instr (.cUleS 2#5 4#5) ∧
    decode 0x46241037#32 = .instr (.cUleD 2#5 4#5) ∧
    decode 0x46041038#32 = .instr (.cSfS 2#5 4#5) ∧
    decode 0x46241038#32 = .instr (.cSfD 2#5 4#5) ∧
    decode 0x46041039#32 = .instr (.cNgleS 2#5 4#5) ∧
    decode 0x46241039#32 = .instr (.cNgleD 2#5 4#5) ∧
    decode 0x4604103A#32 = .instr (.cSeqS 2#5 4#5) ∧
    decode 0x4624103A#32 = .instr (.cSeqD 2#5 4#5) := by decide

theorem test_decode_floating_point_3 :
    decode 0x4604103B#32 = .instr (.cNglS 2#5 4#5) ∧
    decode 0x4624103B#32 = .instr (.cNglD 2#5 4#5) ∧
    decode 0x4604103C#32 = .instr (.cLtS 2#5 4#5) ∧
    decode 0x4624103C#32 = .instr (.cLtD 2#5 4#5) ∧
    decode 0x4604103D#32 = .instr (.cNgeS 2#5 4#5) ∧
    decode 0x4624103D#32 = .instr (.cNgeD 2#5 4#5) ∧
    decode 0x4604103E#32 = .instr (.cLeS 2#5 4#5) ∧
    decode 0x4624103E#32 = .instr (.cLeD 2#5 4#5) ∧
    decode 0x4604103F#32 = .instr (.cNgtS 2#5 4#5) ∧
    decode 0x4624103F#32 = .instr (.cNgtD 2#5 4#5) ∧
    decode 0xC524FFF8#32 = .instr (.lwc1 4#5 9#5 0xFFF8#16) ∧
    decode 0xD524FFF8#32 = .instr (.ldc1 4#5 9#5 0xFFF8#16) ∧
    decode 0xE524FFF8#32 = .instr (.swc1 4#5 9#5 0xFFF8#16) ∧
    decode 0xF524FFF8#32 = .instr (.sdc1 4#5 9#5 0xFFF8#16) ∧
    decode 0x4501FFF8#32 = .instr (.bc1t 0xFFF8#16) ∧
    decode 0x4500FFF8#32 = .instr (.bc1f 0xFFF8#16) := by decide

theorem test_decode_system :
    decode 0x400A6000#32 = .instr (.mfc0 10#5 12#5) ∧
    decode 0x408A6000#32 = .instr (.mtc0 10#5 12#5) ∧
    decode 0x42000018#32 = .instr .eret ∧
    decode 0x02AF378C#32 = .instr (.syscall 0xABCDE#20) ∧
    decode 0x02AF378D#32 = .instr (.brk 0xABCDE#20) ∧
    decode 0x0000000F#32 = .instr .sync ∧
    decode 0x012AA970#32 = .instr (.tge 9#5 10#5 0x2A5#10) ∧
    decode 0x012AA971#32 = .instr (.tgeu 9#5 10#5 0x2A5#10) ∧
    decode 0x012AA972#32 = .instr (.tlt 9#5 10#5 0x2A5#10) ∧
    decode 0x012AA973#32 = .instr (.tltu 9#5 10#5 0x2A5#10) ∧
    decode 0x012AA974#32 = .instr (.teq 9#5 10#5 0x2A5#10) ∧
    decode 0x012AA976#32 = .instr (.tne 9#5 10#5 0x2A5#10) ∧
    decode 0xBD2AFFF8#32 = .instr (.cache 10#5 9#5 0xFFF8#16) ∧
    decode 0xCD2AFFF8#32 = .instr (.pref 10#5 9#5 0xFFF8#16) ∧
    decode 0xC92AFFF8#32 = .instr (.lwc2 10#5 9#5 0xFFF8#16) ∧
    decode 0xD92AFFF8#32 = .instr (.ldc2 10#5 9#5 0xFFF8#16) ∧
    decode 0xE92AFFF8#32 = .instr (.swc2 10#5 9#5 0xFFF8#16) ∧
    decode 0xF92AFFF8#32 = .instr (.sdc2 10#5 9#5 0xFFF8#16) := by decide

/-! ### Integer ALU: the rows of 95_test_vectors.md 2.1 -/

theorem test_add :
    (ran 0x012A4020#32 (start.withX [(9#5, 5#32), (10#5, 0xFFFFFFFD#32)])).map (fun t => t.x 8#5) =
      some 2#32 := by decide
theorem test_add_raises :
    (ran 0x012A4020#32 (start.withX [(9#5, 0x7FFFFFFF#32), (10#5, 1#32), (8#5, 0x00001234#32)])).map
        (fun t => (t.cause, t.epc, t.status, t.pc, t.x 8#5)) =
      some (0x00000030#32, 0x00400000#32, 2#32, 0x80000180#32, 0x00001234#32) := by decide
theorem test_addi :
    (ran 0x2128FFFF#32 (start.withX [(9#5, 0#32)])).map (fun t => t.x 8#5) = some 0xFFFFFFFF#32 := by decide
theorem test_addi_raises :
    (ran 0x21280001#32 (start.withX [(9#5, 0x7FFFFFFF#32), (8#5, 0x00001234#32)])).map
        (fun t => (t.cause, t.epc, t.status, t.pc, t.x 8#5)) =
      some (0x00000030#32, 0x00400000#32, 2#32, 0x80000180#32, 0x00001234#32) := by decide
theorem test_addiu :
    (ran 0x25280001#32 (start.withX [(9#5, 0x7FFFFFFF#32)])).map (fun t => t.x 8#5) =
      some 0x80000000#32 := by decide
theorem test_addu :
    (ran 0x012A4021#32 (start.withX [(9#5, 0xFFFFFFFF#32), (10#5, 2#32)])).map (fun t => t.x 8#5) =
      some 1#32 := by decide
theorem test_sub :
    (ran 0x012A4022#32 (start.withX [(9#5, 5#32), (10#5, 7#32)])).map (fun t => t.x 8#5) =
      some 0xFFFFFFFE#32 := by decide
theorem test_sub_raises :
    (ran 0x012A4022#32 (start.withX [(9#5, 0x80000000#32), (10#5, 1#32), (8#5, 0x00001234#32)])).map
        (fun t => (t.cause, t.epc, t.status, t.pc, t.x 8#5)) =
      some (0x00000030#32, 0x00400000#32, 2#32, 0x80000180#32, 0x00001234#32) := by decide
theorem test_subu :
    (ran 0x012A4023#32 (start.withX [(9#5, 0#32), (10#5, 1#32)])).map (fun t => t.x 8#5) =
      some 0xFFFFFFFF#32 := by decide
theorem test_and :
    (ran 0x012A4024#32 (start.withX [(9#5, 0xFF00FF00#32), (10#5, 0x0FF00FF0#32)])).map (fun t => t.x 8#5) =
      some 0x0F000F00#32 := by decide
theorem test_or :
    (ran 0x012A4025#32 (start.withX [(9#5, 0xFF00FF00#32), (10#5, 0x0FF00FF0#32)])).map (fun t => t.x 8#5) =
      some 0xFFF0FFF0#32 := by decide
theorem test_xor :
    (ran 0x012A4026#32 (start.withX [(9#5, 0xFF00FF00#32), (10#5, 0x0FF00FF0#32)])).map (fun t => t.x 8#5) =
      some 0xF0F0F0F0#32 := by decide
theorem test_nor :
    (ran 0x012A4027#32 (start.withX [(9#5, 0xFF00FF00#32), (10#5, 0x0FF00FF0#32)])).map (fun t => t.x 8#5) =
      some 0x000F000F#32 := by decide
theorem test_andi :
    (ran 0x3128FF00#32 (start.withX [(9#5, 0xFFFFFFFF#32)])).map (fun t => t.x 8#5) =
      some 0x0000FF00#32 := by decide
theorem test_ori :
    (ran 0x35288000#32 (start.withX [(9#5, 0x12340000#32)])).map (fun t => t.x 8#5) =
      some 0x12348000#32 := by decide
theorem test_xori :
    (ran 0x3928FFFF#32 (start.withX [(9#5, 0xFFFF0000#32)])).map (fun t => t.x 8#5) =
      some 0xFFFFFFFF#32 := by decide
theorem test_lui :
    (ran 0x3C081234#32 (start.withX [(8#5, 0xFFFFFFFF#32)])).map (fun t => t.x 8#5) =
      some 0x12340000#32 := by decide
theorem test_slt :
    (ran 0x012A402A#32 (start.withX [(9#5, 0xFFFFFFFF#32), (10#5, 1#32)])).map (fun t => t.x 8#5) =
      some 1#32 := by decide
theorem test_sltu :
    (ran 0x012A402B#32 (start.withX [(9#5, 0xFFFFFFFF#32), (10#5, 1#32)])).map (fun t => t.x 8#5) =
      some 0#32 := by decide
theorem test_slti :
    (ran 0x2928FFFF#32 (start.withX [(9#5, 0xFFFFFFFE#32)])).map (fun t => t.x 8#5) = some 1#32 := by decide
theorem test_sltiu :
    (ran 0x2D28FFFF#32 (start.withX [(9#5, 0xFFFFFFFE#32)])).map (fun t => t.x 8#5) = some 1#32 := by decide
theorem test_sll :
    (ran 0x00094100#32 (start.withX [(9#5, 0x80000001#32)])).map (fun t => t.x 8#5) =
      some 0x00000010#32 := by decide
theorem test_srl :
    (ran 0x00094102#32 (start.withX [(9#5, 0x80000001#32)])).map (fun t => t.x 8#5) =
      some 0x08000000#32 := by decide
theorem test_sra :
    (ran 0x00094103#32 (start.withX [(9#5, 0x80000001#32)])).map (fun t => t.x 8#5) =
      some 0xF8000000#32 := by decide
theorem test_sllv :
    (ran 0x01494004#32 (start.withX [(9#5, 1#32), (10#5, 0x00000024#32)])).map (fun t => t.x 8#5) =
      some 0x00000010#32 := by decide
theorem test_srlv :
    (ran 0x01494006#32 (start.withX [(9#5, 0x80000000#32), (10#5, 0xFFFFFFFF#32)])).map (fun t => t.x 8#5) =
      some 1#32 := by decide
theorem test_srav :
    (ran 0x01494007#32 (start.withX [(9#5, 0xF0000000#32), (10#5, 8#32)])).map (fun t => t.x 8#5) =
      some 0xFFF00000#32 := by decide
theorem test_movz :
    (ran 0x012A400A#32 (start.withX [(8#5, 0x00001111#32), (9#5, 0x00002222#32), (10#5, 0#32)])).map
        (fun t => t.x 8#5) =
      some 0x00002222#32 := by decide
theorem test_movz_not_moved :
    (ran 0x012A400A#32 (start.withX [(8#5, 0x00001111#32), (9#5, 0x00002222#32), (10#5, 1#32)])).map
        (fun t => (t.x 8#5, t.pc)) =
      some (0x00001111#32, 0x00400004#32) := by decide
theorem test_movn :
    (ran 0x012A400B#32 (start.withX [(8#5, 0x00001111#32), (9#5, 0x00002222#32), (10#5, 0x80000000#32)])).map
        (fun t => t.x 8#5) =
      some 0x00002222#32 := by decide
theorem test_movn_not_moved :
    (ran 0x012A400B#32 (start.withX [(8#5, 0x00001111#32), (9#5, 0x00002222#32), (10#5, 0#32)])).map
        (fun t => (t.x 8#5, t.pc)) =
      some (0x00001111#32, 0x00400004#32) := by decide

/-! ### Branches and jumps, the first of the two steps of each row of 95_test_vectors.md 2.2 -/

theorem test_beq :
    (ran 0x11090003#32 (start.withX [(8#5, 5#32), (9#5, 5#32)])).map (fun t => (t.pc, t.npc, t.inDs)) =
      some (0x00400004#32, 0x00400010#32, true) := by decide
theorem test_bne :
    (ran 0x15000002#32 (start.withX [(8#5, 1#32)])).map (fun t => (t.pc, t.npc, t.inDs)) =
      some (0x00400004#32, 0x0040000C#32, true) := by decide
theorem test_beq_again :
    (ran 0x11098000#32 (start.withX [(8#5, 0#32), (9#5, 0#32)])).map (fun t => (t.pc, t.npc, t.inDs)) =
      some (0x00400004#32, 0x003E0004#32, true) := by decide
theorem test_blez :
    (ran 0x19000003#32 (start.withX [(8#5, 0x80000000#32)])).map (fun t => (t.pc, t.npc, t.inDs)) =
      some (0x00400004#32, 0x00400010#32, true) := by decide
theorem test_blez_again :
    (ran 0x19000003#32 (start.withX [(8#5, 1#32)])).map (fun t => (t.pc, t.npc, t.inDs)) =
      some (0x00400004#32, 0x00400008#32, true) := by decide
theorem test_bgtz :
    (ran 0x1D00FFFD#32 (start.withX [(8#5, 0x7FFFFFFF#32)])).map (fun t => (t.pc, t.npc, t.inDs)) =
      some (0x00400004#32, 0x003FFFF8#32, true) := by decide
theorem test_bgtz_again :
    (ran 0x1D00FFFD#32 (start.withX [(8#5, 0#32)])).map (fun t => (t.pc, t.npc, t.inDs)) =
      some (0x00400004#32, 0x00400008#32, true) := by decide
theorem test_j :
    (ran 0x08100008#32 start).map (fun t => (t.pc, t.npc, t.inDs)) =
      some (0x00400004#32, 0x00400020#32, true) := by decide
theorem test_jal :
    (ran 0x0C100040#32 { start with pc := 0x00400008#32, npc := 0x0040000C#32 }).map
        (fun t => (t.pc, t.npc, t.inDs, t.x 31#5)) =
      some (0x0040000C#32, 0x00400100#32, true, 0x00400010#32) := by decide
theorem test_jr :
    (ran 0x03E00008#32 (start.withX [(31#5, 0x00400100#32)])).map (fun t => (t.pc, t.npc, t.inDs)) =
      some (0x00400004#32, 0x00400100#32, true) := by decide
theorem test_jalr :
    (ran 0x01208009#32 (start.withX [(9#5, 0x00400200#32)])).map (fun t => (t.pc, t.npc, t.inDs, t.x 16#5)) =
      some (0x00400004#32, 0x00400200#32, true, 0x00400008#32) := by decide
theorem test_bc1t :
    (ran 0x45010003#32 { start with fpcond := true }).map (fun t => (t.pc, t.npc, t.inDs)) =
      some (0x00400004#32, 0x00400010#32, true) := by decide
theorem test_bc1t_again :
    (ran 0x45010003#32 { start with fpcond := false }).map (fun t => (t.pc, t.npc, t.inDs)) =
      some (0x00400004#32, 0x00400008#32, true) := by decide
theorem test_bc1f :
    (ran 0x4500FFFE#32 { start with fpcond := false }).map (fun t => (t.pc, t.npc, t.inDs)) =
      some (0x00400004#32, 0x003FFFFC#32, true) := by decide

/-! ### Loads and stores: 95_test_vectors.md 2.3 -/

theorem test_lw :
    (ran 0x8D280000#32 ((start.withX [(9#5, 0x10010000#32)]).withData)).map (fun t => t.x 8#5) =
      some 0x11223344#32 := by decide
theorem test_lw_raises :
    (ran 0x8D280002#32 (start.withX [(9#5, 0x10010000#32), (8#5, 0x00001234#32)])).map
        (fun t => (t.cause, t.epc, t.status, t.badVAddr, t.pc, t.x 8#5)) =
      some (0x00000010#32, 0x00400000#32, 2#32, 0x10010002#32, 0x80000180#32, 0x00001234#32) := by decide
theorem test_lhu :
    (ran 0x95280008#32 ((start.withX [(9#5, 0x10010000#32)]).withData)).map (fun t => t.x 8#5) =
      some 0x000099AA#32 := by decide
theorem test_lh :
    (ran 0x85280008#32 ((start.withX [(9#5, 0x10010000#32)]).withData)).map (fun t => t.x 8#5) =
      some 0xFFFF99AA#32 := by decide
theorem test_lhu_raises :
    (ran 0x95280001#32 (start.withX [(9#5, 0x10010000#32), (8#5, 0x00001234#32)])).map
        (fun t => (t.cause, t.epc, t.status, t.badVAddr, t.pc, t.x 8#5)) =
      some (0x00000010#32, 0x00400000#32, 2#32, 0x10010001#32, 0x80000180#32, 0x00001234#32) := by decide
theorem test_lbu :
    (ran 0x9128000C#32 ((start.withX [(9#5, 0x10010000#32)]).withData)).map (fun t => t.x 8#5) =
      some 0x00000080#32 := by decide
theorem test_lb :
    (ran 0x8128000C#32 ((start.withX [(9#5, 0x10010000#32)]).withData)).map (fun t => t.x 8#5) =
      some 0xFFFFFF80#32 := by decide
theorem test_sw :
    (ran 0xAD280004#32 ((start.withX [(9#5, 0x10010000#32), (8#5, 0xA1B2C3D4#32)]).withData)).map
        (fun t => t.bytesFrom 0x10010003#32 6) =
      some [0x44#8, 0xA1#8, 0xB2#8, 0xC3#8, 0xD4#8, 0x99#8] := by decide
theorem test_sw_raises :
    (ran 0xAD280006#32 (start.withX [(9#5, 0x10010000#32), (8#5, 0xA1B2C3D4#32)])).map
        (fun t => (t.cause, t.epc, t.status, t.badVAddr, t.pc, t.x 8#5)) =
      some (0x00000014#32, 0x00400000#32, 2#32, 0x10010006#32, 0x80000180#32, 0xA1B2C3D4#32) := by decide
theorem test_sh :
    (ran 0xA5280002#32 ((start.withX [(9#5, 0x10010000#32), (8#5, 0xA1B2C3D4#32)]).withData)).map
        (fun t => t.bytesFrom 0x10010001#32 4) =
      some [0x22#8, 0xC3#8, 0xD4#8, 0x55#8] := by decide
theorem test_sh_raises :
    (ran 0xA5280003#32 (start.withX [(9#5, 0x10010000#32), (8#5, 0xA1B2C3D4#32)])).map
        (fun t => (t.cause, t.epc, t.status, t.badVAddr, t.pc, t.x 8#5)) =
      some (0x00000014#32, 0x00400000#32, 2#32, 0x10010003#32, 0x80000180#32, 0xA1B2C3D4#32) := by decide
theorem test_sb :
    (ran 0xA1280001#32 ((start.withX [(9#5, 0x10010000#32), (8#5, 0xA1B2C3D4#32)]).withData)).map
        (fun t => t.bytesFrom 0x10010000#32 3) =
      some [0x11#8, 0xD4#8, 0x33#8] := by decide
theorem test_lwl :
    (ran 0x89280002#32 ((start.withX [(9#5, 0x10010000#32), (8#5, 0xA1B2C3D4#32)]).withData)).map
        (fun t => t.x 8#5) =
      some 0x3344C3D4#32 := by decide
theorem test_lwr :
    (ran 0x99280002#32 ((start.withX [(9#5, 0x10010000#32), (8#5, 0xA1B2C3D4#32)]).withData)).map
        (fun t => t.x 8#5) =
      some 0xA1112233#32 := by decide
theorem test_swl :
    (ran 0xA9280002#32 ((start.withX [(9#5, 0x10010000#32), (8#5, 0xA1B2C3D4#32)]).withData)).map
        (fun t => t.bytesFrom 0x10010001#32 4) =
      some [0x22#8, 0xA1#8, 0xB2#8, 0x55#8] := by decide
theorem test_swr :
    (ran 0xB9280002#32 ((start.withX [(9#5, 0x10010000#32), (8#5, 0xA1B2C3D4#32)]).withData)).map
        (fun t => t.bytesFrom 0x10010000#32 4) =
      some [0xB2#8, 0xC3#8, 0xD4#8, 0x44#8] := by decide
theorem test_ll :
    (ran 0xC1280004#32 ((start.withX [(9#5, 0x10010000#32)]).withData)).map
        (fun t => (t.x 8#5, t.llBit, t.llAddr)) =
      some (0x55667788#32, true, 0x10010004#32) := by decide
theorem test_sc :
    (ran 0xE1280004#32 (((start.withX [(9#5, 0x10010000#32), (8#5, 0xA1B2C3D4#32)]).withData).setLink 0x10010004#32)).map
        (fun t => (t.x 8#5, t.llBit, t.llAddr, t.bytesFrom 0x10010003#32 6)) =
      some (1#32, false, 0x10010004#32, [0x44#8, 0xA1#8, 0xB2#8, 0xC3#8, 0xD4#8, 0x99#8]) := by decide
theorem test_sc_again :
    (ran 0xE1280004#32 ((start.withX [(9#5, 0x10010000#32), (8#5, 0xA1B2C3D4#32)]).withData)).map
        (fun t => t.x 8#5) =
      some 0#32 := by decide
theorem test_ll_raises :
    (ran 0xC1280002#32 (start.withX [(9#5, 0x10010000#32), (8#5, 0x00001234#32)])).map
        (fun t => (t.cause, t.epc, t.status, t.badVAddr, t.pc, t.x 8#5)) =
      some (0x00000010#32, 0x00400000#32, 2#32, 0x10010002#32, 0x80000180#32, 0x00001234#32) := by decide

/-! ### Multiply, divide, HI and LO: 95_test_vectors.md 2.4 -/

theorem test_mult :
    (ran 0x012A0018#32 (start.withX [(9#5, 0xFFFFFFFA#32), (10#5, 8#32)])).map (fun t => (t.hi, t.lo)) =
      some (0xFFFFFFFF#32, 0xFFFFFFD0#32) := by decide
theorem test_multu :
    (ran 0x012A0019#32 (start.withX [(9#5, 0xFFFFFFFA#32), (10#5, 8#32)])).map (fun t => (t.hi, t.lo)) =
      some (7#32, 0xFFFFFFD0#32) := by decide
theorem test_div :
    (ran 0x012A001A#32 (start.withX [(9#5, 0xFFFFFFF9#32), (10#5, 2#32)])).map (fun t => (t.hi, t.lo)) =
      some (0xFFFFFFFF#32, 0xFFFFFFFD#32) := by decide
theorem test_div_again :
    (ran 0x012A001A#32 (start.withX [(9#5, 0x80000000#32), (10#5, 0xFFFFFFFF#32)])).map (fun t => (t.hi, t.lo)) =
      some (0#32, 0x80000000#32) := by decide
theorem test_divu :
    (ran 0x012A001B#32 (start.withX [(9#5, 0xFFFFFFF9#32), (10#5, 2#32)])).map (fun t => (t.hi, t.lo)) =
      some (1#32, 0x7FFFFFFC#32) := by decide
theorem test_mfhi :
    (ran 0x00004010#32 { start with hi := 0xDEADBEEF#32, lo := 0x12345678#32 }).map (fun t => t.x 8#5) =
      some 0xDEADBEEF#32 := by decide
theorem test_mflo :
    (ran 0x00004012#32 { start with hi := 0xDEADBEEF#32, lo := 0x12345678#32 }).map (fun t => t.x 8#5) =
      some 0x12345678#32 := by decide
theorem test_mthi :
    (ran 0x01200011#32 { start.withX [(9#5, 0xCAFEBABE#32)] with hi := 1#32, lo := 2#32 }).map
        (fun t => (t.hi, t.lo)) =
      some (0xCAFEBABE#32, 2#32) := by decide
theorem test_mtlo :
    (ran 0x01200013#32 { start.withX [(9#5, 0xCAFEBABE#32)] with hi := 1#32, lo := 2#32 }).map
        (fun t => (t.hi, t.lo)) =
      some (1#32, 0xCAFEBABE#32) := by decide

/-! ### Floating point: 95_test_vectors.md 2.7 -/

theorem test_add_s :
    (ran 0x46010080#32 (start.withF [(0#5, 0x3F800001#32), (1#5, 0x33800000#32)])).map (fun t => t.f 2#5) =
      some 0x3F800002#32 := by decide
theorem test_sub_s :
    (ran 0x46010081#32 (start.withF [(0#5, 0x00800000#32), (1#5, 1#32)])).map (fun t => t.f 2#5) =
      some 0x007FFFFF#32 := by decide
theorem test_mul_s :
    (ran 0x46010082#32 (start.withF [(0#5, 3#32), (1#5, 0x3F000000#32)])).map (fun t => t.f 2#5) =
      some 2#32 := by decide
theorem test_div_s :
    (ran 0x46010083#32 (start.withF [(0#5, 0x3F800000#32), (1#5, 0x40400000#32)])).map (fun t => t.f 2#5) =
      some 0x3EAAAAAB#32 := by decide
theorem test_sub_d :
    (ran 0x46220101#32 (start.withD [(0#5, 0x3FF8000000000000#64), (2#5, 0x4002000000000000#64)])).map
        (fun t => t.fd64 4#5) =
      some 0xBFE8000000000000#64 := by decide
theorem test_mul_d :
    (ran 0x46220102#32 (start.withD [(0#5, 0x3FF8000000000000#64), (2#5, 0x4002000000000000#64)])).map
        (fun t => t.fd64 4#5) =
      some 0x400B000000000000#64 := by decide
theorem test_add_d :
    (ran 0x46220100#32 (start.withD [(0#5, 0x3FB999999999999A#64), (2#5, 0x3FC999999999999A#64)])).map
        (fun t => t.fd64 4#5) =
      some 0x3FD3333333333334#64 := by decide
theorem test_div_d :
    (ran 0x46220103#32 (start.withD [(0#5, 0x3FF0000000000000#64), (2#5, 0x4008000000000000#64)])).map
        (fun t => t.fd64 4#5) =
      some 0x3FD5555555555555#64 := by decide
set_option maxRecDepth 4000 in
theorem test_sqrt_s :
    (ran 0x46000084#32 (start.withF [(0#5, 0x40000000#32)])).map (fun t => t.f 2#5) =
      some 0x3FB504F3#32 := by decide
set_option maxRecDepth 4000 in
theorem test_sqrt_d :
    (ran 0x46200084#32 (start.withD [(0#5, 0x4000000000000000#64)])).map (fun t => t.fd64 2#5) =
      some 0x3FF6A09E667F3BCD#64 := by decide
theorem test_cvt_s_d :
    (ran 0x462000A0#32 (start.withD [(0#5, 0x37A16C262777579C#64)])).map (fun t => t.f 2#5) =
      some 0x000116C2#32 := by decide
theorem test_cvt_d_s :
    (ran 0x460000A1#32 (start.withF [(0#5, 1#32)])).map (fun t => t.fd64 2#5) =
      some 0x36A0000000000000#64 := by decide
theorem test_round_w_s :
    (ran 0x4600008C#32 (start.withF [(0#5, 0xC0200000#32)])).map (fun t => t.f 2#5) =
      some 0xFFFFFFFE#32 := by decide
theorem test_trunc_w_s :
    (ran 0x4600008D#32 (start.withF [(0#5, 0xC0200000#32)])).map (fun t => t.f 2#5) =
      some 0xFFFFFFFE#32 := by decide
theorem test_ceil_w_s :
    (ran 0x4600008E#32 (start.withF [(0#5, 0xC0200000#32)])).map (fun t => t.f 2#5) =
      some 0xFFFFFFFE#32 := by decide
theorem test_floor_w_s :
    (ran 0x4600008F#32 (start.withF [(0#5, 0xC0200000#32)])).map (fun t => t.f 2#5) =
      some 0xFFFFFFFD#32 := by decide
theorem test_cvt_w_s :
    (ran 0x460000A4#32 (start.withF [(0#5, 0xC0200000#32)])).map (fun t => t.f 2#5) =
      some 0xFFFFFFFE#32 := by decide
theorem test_round_w_d :
    (ran 0x4620008C#32 (start.withD [(0#5, 0xC004000000000000#64)])).map (fun t => t.f 2#5) =
      some 0xFFFFFFFE#32 := by decide
theorem test_trunc_w_d :
    (ran 0x4620008D#32 (start.withD [(0#5, 0xC004000000000000#64)])).map (fun t => t.f 2#5) =
      some 0xFFFFFFFE#32 := by decide
theorem test_ceil_w_d :
    (ran 0x4620008E#32 (start.withD [(0#5, 0xC004000000000000#64)])).map (fun t => t.f 2#5) =
      some 0xFFFFFFFE#32 := by decide
theorem test_floor_w_d :
    (ran 0x4620008F#32 (start.withD [(0#5, 0xC004000000000000#64)])).map (fun t => t.f 2#5) =
      some 0xFFFFFFFD#32 := by decide
theorem test_cvt_w_d :
    (ran 0x462000A4#32 (start.withD [(0#5, 0xC004000000000000#64)])).map (fun t => t.f 2#5) =
      some 0xFFFFFFFE#32 := by decide
theorem test_mov_s :
    (ran 0x46000086#32 (start.withF [(0#5, 0x7FC12345#32)])).map (fun t => t.f 2#5) =
      some 0x7FC12345#32 := by decide
theorem test_abs_s :
    (ran 0x46000085#32 (start.withF [(0#5, 0xC0200000#32)])).map (fun t => t.f 2#5) =
      some 0x40200000#32 := by decide
theorem test_neg_s :
    (ran 0x46000087#32 (start.withF [(0#5, 0#32)])).map (fun t => t.f 2#5) = some 0x80000000#32 := by decide
theorem test_lwc1 :
    (ran 0xC5200000#32 ((start.withX [(9#5, 0x10010000#32)]).placeBytes 0x10010000#32 (wordBytes 0x3FC00000#32))).map
        (fun t => t.f 0#5) =
      some 0x3FC00000#32 := by decide
theorem test_ldc1 :
    (ran 0xD5200000#32 ((start.withX [(9#5, 0x10010000#32)]).placeBytes 0x10010000#32
        (wordBytes 0x3FB99999#32 ++ wordBytes 0x9999999A#32))).map
        (fun t => (t.f 0#5, t.f 1#5)) =
      some (0x3FB99999#32, 0x9999999A#32) := by decide
theorem test_ldc1_raises :
    (ran 0xD5200004#32 (start.withX [(9#5, 0x10010000#32)])).map
        (fun t => (t.cause, t.epc, t.status, t.badVAddr, t.pc)) =
      some (0x00000010#32, 0x00400000#32, 2#32, 0x10010004#32, 0x80000180#32) := by decide
theorem test_swc1 :
    (ran 0xE5200004#32 ((start.withX [(9#5, 0x10010000#32)]).withF [(0#5, 0x3FC00000#32)])).map
        (fun t => t.bytesFrom 0x10010004#32 4) =
      some [0x3F#8, 0xC0#8, 0#8, 0#8] := by decide
theorem test_sdc1 :
    (ran 0xF7A2FFF8#32 ((start.withX [(29#5, 0x10010008#32)]).withF [(2#5, 0x3FB99999#32), (3#5, 0x9999999A#32)])).map
        (fun t => t.bytesFrom 0x10010000#32 8) =
      some [0x3F#8, 0xB9#8, 0x99#8, 0x99#8, 0x99#8, 0x99#8, 0x99#8, 0x9A#8] := by decide
theorem test_sdc1_raises :
    (ran 0xF5220004#32 (start.withX [(9#5, 0x10010000#32)])).map
        (fun t => (t.cause, t.epc, t.status, t.badVAddr, t.pc)) =
      some (0x00000014#32, 0x00400000#32, 2#32, 0x10010004#32, 0x80000180#32) := by decide
theorem test_lwc1_raises :
    (ran 0xC5200002#32 (start.withX [(9#5, 0x10010000#32)])).map
        (fun t => (t.cause, t.epc, t.status, t.badVAddr, t.pc)) =
      some (0x00000010#32, 0x00400000#32, 2#32, 0x10010002#32, 0x80000180#32) := by decide
theorem test_movz_s :
    (ran 0x46080092#32 ((start.withX [(8#5, 0#32)]).withF [(0#5, 0x3FC00000#32), (2#5, 0x11111111#32)])).map
        (fun t => t.f 2#5) =
      some 0x3FC00000#32 := by decide
theorem test_movn_d :
    (ran 0x46280093#32 ((start.withX [(8#5, 0x80000000#32)]).withF [(0#5, 0x3FB99999#32), (1#5, 0x9999999A#32)])).map
        (fun t => (t.f 2#5, t.f 3#5)) =
      some (0x3FB99999#32, 0x9999999A#32) := by decide
theorem test_mov_d :
    (ran 0x46200086#32 (start.withD [(0#5, 0x7FF8000012345678#64)])).map (fun t => t.fd64 2#5) =
      some 0x7FF8000012345678#64 := by decide
theorem test_abs_d :
    (ran 0x46200085#32 (start.withD [(0#5, 0xC004000000000001#64)])).map (fun t => t.fd64 2#5) =
      some 0x4004000000000001#64 := by decide
theorem test_neg_d :
    (ran 0x46200087#32 (start.withD [(0#5, 0x0000000000000000#64)])).map (fun t => t.fd64 2#5) =
      some 0x8000000000000000#64 := by decide
theorem test_movz_d :
    (ran 0x46280092#32 (start.withD [(0#5, 0x0123456789ABCDEF#64)])).map (fun t => t.fd64 2#5) =
      some 0x0123456789ABCDEF#64 := by decide
theorem test_movn_s_not_moved :
    (ran 0x46080093#32 (start.withF [(0#5, 0x3FC00000#32), (2#5, 0x11111111#32)])).map (fun t => t.f 2#5) =
      some 0x11111111#32 := by decide

/-! ### Compares: 95_test_vectors.md 2.7, each with a pair whose relation tells the predicate from its neighbours, and FPcond
the other way before -/

theorem test_c_f_s : comparedS 0x46010030#32 0x3FC00000#32 0x40100000#32 true = some false := by decide
theorem test_c_f_d :
    comparedD 0x46220030#32 0x3FF8000000000000#64 0x4002000000000000#64 true = some false := by decide
theorem test_c_un_s : comparedS 0x46010031#32 0x7FC00000#32 0x3F800000#32 false = some true := by decide
theorem test_c_un_d :
    comparedD 0x46220031#32 0x7FF8000000000000#64 0x3FF0000000000000#64 false = some true := by decide
theorem test_c_eq_s : comparedS 0x46010032#32 0#32 0x80000000#32 false = some true := by decide
theorem test_c_eq_d : comparedD 0x46220032#32 0#64 0x8000000000000000#64 false = some true := by decide
theorem test_c_ueq_s : comparedS 0x46010033#32 0x7FC00000#32 0x3F800000#32 false = some true := by decide
theorem test_c_ueq_d :
    comparedD 0x46220033#32 0x7FF8000000000000#64 0x3FF0000000000000#64 false = some true := by decide
theorem test_c_olt_s : comparedS 0x46010034#32 0x3FC00000#32 0x40100000#32 false = some true := by decide
theorem test_c_olt_d :
    comparedD 0x46220034#32 0x3FF8000000000000#64 0x4002000000000000#64 false = some true := by decide
theorem test_c_ult_s : comparedS 0x46010035#32 0x7FC00000#32 0x3F800000#32 false = some true := by decide
theorem test_c_ult_d :
    comparedD 0x46220035#32 0x7FF8000000000000#64 0x3FF0000000000000#64 false = some true := by decide
theorem test_c_ole_s : comparedS 0x46010036#32 0#32 0x80000000#32 false = some true := by decide
theorem test_c_ole_d : comparedD 0x46220036#32 0#64 0x8000000000000000#64 false = some true := by decide
theorem test_c_ule_s : comparedS 0x46010037#32 0x7FC00000#32 0x3F800000#32 false = some true := by decide
theorem test_c_ule_d :
    comparedD 0x46220037#32 0x7FF8000000000000#64 0x3FF0000000000000#64 false = some true := by decide
theorem test_c_sf_s : comparedS 0x46010038#32 0x3FC00000#32 0x40100000#32 true = some false := by decide
theorem test_c_sf_d :
    comparedD 0x46220038#32 0x3FF8000000000000#64 0x4002000000000000#64 true = some false := by decide
theorem test_c_ngle_s : comparedS 0x46010039#32 0x7FC00000#32 0x3F800000#32 false = some true := by decide
theorem test_c_ngle_d :
    comparedD 0x46220039#32 0x7FF8000000000000#64 0x3FF0000000000000#64 false = some true := by decide
theorem test_c_seq_s : comparedS 0x4601003A#32 0#32 0x80000000#32 false = some true := by decide
theorem test_c_seq_d : comparedD 0x4622003A#32 0#64 0x8000000000000000#64 false = some true := by decide
theorem test_c_ngl_s : comparedS 0x4601003B#32 0#32 0x80000000#32 false = some true := by decide
theorem test_c_ngl_d : comparedD 0x4622003B#32 0#64 0x8000000000000000#64 false = some true := by decide
theorem test_c_lt_s : comparedS 0x4601003C#32 0x3FC00000#32 0x40100000#32 false = some true := by decide
theorem test_c_lt_d :
    comparedD 0x4622003C#32 0x3FF8000000000000#64 0x4002000000000000#64 false = some true := by decide
theorem test_c_nge_s : comparedS 0x4601003D#32 0x3FC00000#32 0x40100000#32 false = some true := by decide
theorem test_c_nge_d :
    comparedD 0x4622003D#32 0x3FF8000000000000#64 0x4002000000000000#64 false = some true := by decide
theorem test_c_le_s : comparedS 0x4601003E#32 0x3FC00000#32 0x40100000#32 false = some true := by decide
theorem test_c_le_d :
    comparedD 0x4622003E#32 0x3FF8000000000000#64 0x4002000000000000#64 false = some true := by decide
theorem test_c_ngt_s : comparedS 0x4601003F#32 0#32 0x80000000#32 false = some true := by decide
theorem test_c_ngt_d : comparedD 0x4622003F#32 0#64 0x8000000000000000#64 false = some true := by decide

/-! ### System: 95_test_vectors.md 2.5 -/

theorem test_syscall_raises :
    (ran 0x0000000C#32 start).map (fun t => (t.cause, t.epc, t.status, t.pc)) =
      some (0x00000020#32, 0x00400000#32, 2#32, 0x80000180#32) := by decide
theorem test_break_raises :
    (ran 0x0000000D#32 start).map (fun t => (t.cause, t.epc, t.status, t.pc)) =
      some (0x00000024#32, 0x00400000#32, 2#32, 0x80000180#32) := by decide
theorem test_sync : (ran 0x0000000F#32 start).map (fun t => t.pc) = some 0x00400004#32 := by decide
theorem test_tge_raises :
    (ran 0x012A0030#32 (start.withX [(9#5, 5#32), (10#5, 5#32)])).map (fun t => (t.cause, t.epc, t.status, t.pc)) =
      some (0x00000034#32, 0x00400000#32, 2#32, 0x80000180#32) := by decide
theorem test_tge :
    (ran 0x012A0030#32 (start.withX [(9#5, 0xFFFFFFFF#32), (10#5, 1#32)])).map (fun t => t.pc) =
      some 0x00400004#32 := by decide
theorem test_tgeu_raises :
    (ran 0x012A0031#32 (start.withX [(9#5, 0xFFFFFFFF#32), (10#5, 1#32)])).map
        (fun t => (t.cause, t.epc, t.status, t.pc)) =
      some (0x00000034#32, 0x00400000#32, 2#32, 0x80000180#32) := by decide
theorem test_tlt_raises :
    (ran 0x012A0032#32 (start.withX [(9#5, 0xFFFFFFFF#32), (10#5, 1#32)])).map
        (fun t => (t.cause, t.epc, t.status, t.pc)) =
      some (0x00000034#32, 0x00400000#32, 2#32, 0x80000180#32) := by decide
theorem test_tltu :
    (ran 0x012A0033#32 (start.withX [(9#5, 0xFFFFFFFF#32), (10#5, 1#32)])).map (fun t => t.pc) =
      some 0x00400004#32 := by decide
theorem test_teq_raises :
    (ran 0x012A0034#32 (start.withX [(9#5, 7#32), (10#5, 7#32)])).map (fun t => (t.cause, t.epc, t.status, t.pc)) =
      some (0x00000034#32, 0x00400000#32, 2#32, 0x80000180#32) := by decide
theorem test_tne_raises :
    (ran 0x012A0036#32 (start.withX [(9#5, 7#32), (10#5, 8#32)])).map (fun t => (t.cause, t.epc, t.status, t.pc)) =
      some (0x00000034#32, 0x00400000#32, 2#32, 0x80000180#32) := by decide
theorem test_mfc0 :
    (ran 0x40086800#32 { start with cause := 0x80000320#32 }).map (fun t => t.x 8#5) =
      some 0x80000320#32 := by decide
theorem test_mtc0 :
    (ran 0x40886000#32 (start.withX [(8#5, 0xFFFFFFFF#32)])).map (fun t => t.status) =
      some 0x0000FF13#32 := by decide
theorem test_mtc0_again :
    (ran 0x40886800#32 { start.withX [(8#5, 0xFFFFFFFF#32)] with cause := 0x80000030#32 }).map (fun t => t.cause) =
      some 0x80000330#32 := by decide
theorem test_mfc0_raises :
    (ran 0x40086000#32 { start.withX [(8#5, 0x00001234#32)] with status := 0x00000010#32 }).map
        (fun t => (t.cause, t.epc, t.status, t.pc, t.x 8#5)) =
      some (0x0000002C#32, 0x00400000#32, 0x00000012#32, 0x80000180#32, 0x00001234#32) := by decide
theorem test_eret :
    (ran 0x42000018#32 { start with status := 0x00000012#32, epc := 0x00400100#32, llBit := true }).map
        (fun t => (t.pc, t.npc, t.inDs, t.llBit, t.status)) =
      some (0x00400100#32, 0x00400104#32, false, false, 0x00000010#32) := by decide
theorem test_eret_raises :
    (ran 0x42000018#32 { start with status := 0x00000010#32 }).map (fun t => (t.cause, t.epc, t.status, t.pc)) =
      some (0x0000002C#32, 0x00400000#32, 0x00000012#32, 0x80000180#32) := by decide
theorem test_cache :
    (ran 0xBD3D0000#32 (start.withX [(9#5, 0x10010000#32)])).map (fun t => t.pc) = some 0x00400004#32 := by decide
theorem test_cache_raises :
    (ran 0xBD3D0000#32 { start.withX [(9#5, 0x10010000#32)] with status := 0x00000010#32 }).map
        (fun t => (t.cause, t.epc, t.status, t.pc)) =
      some (0x0000002C#32, 0x00400000#32, 0x00000012#32, 0x80000180#32) := by decide
theorem test_pref :
    (ran 0xCD200000#32 (start.withX [(9#5, 0x20000001#32)])).map (fun t => t.pc) = some 0x00400004#32 := by decide
theorem test_lwc2_raises :
    (ran 0xC9220000#32 (start.withX [(9#5, 0x10010000#32)])).map (fun t => (t.cause, t.epc, t.status, t.pc)) =
      some (0x0000002C#32, 0x00400000#32, 2#32, 0x80000180#32) := by decide
theorem test_ldc2_raises :
    (ran 0xD9220000#32 (start.withX [(9#5, 0x10010000#32)])).map (fun t => (t.cause, t.epc, t.status, t.pc)) =
      some (0x0000002C#32, 0x00400000#32, 2#32, 0x80000180#32) := by decide
theorem test_swc2_raises :
    (ran 0xE9220000#32 (start.withX [(9#5, 0x10010000#32)])).map (fun t => (t.cause, t.epc, t.status, t.pc)) =
      some (0x0000002C#32, 0x00400000#32, 2#32, 0x80000180#32) := by decide
theorem test_sdc2_raises :
    (ran 0xF9220000#32 (start.withX [(9#5, 0x10010000#32)])).map (fun t => (t.cause, t.epc, t.status, t.pc)) =
      some (0x0000002C#32, 0x00400000#32, 2#32, 0x80000180#32) := by decide

/-! ### Steps -/

theorem test_table_word : decodeTableWord 32 0x8D28FFFC = some (.lw 8#5 9#5 0xFFFC#16) := by decide
theorem test_first_step_after_reset :
    (stepped (State.reset.withFetchWord 32 0x3408FFFF)).map (fun t => (t.x 8#5, t.pc)) =
      some (0x0000FFFF#32, 0xBFC00004#32) := by decide

theorem test_step_overflow_in_a_delay_slot :
    (stepped ({ (start.withX [(9#5, 0x7FFFFFFF#32)]) with
        pc := 0x00400004#32, npc := 0x00400100#32, inDs := true }.placed 0x21280001#32)).map
        (fun t => (t.cause, t.epc, t.status, t.pc, t.x 8#5)) =
      some (0x80000030#32, 0x00400000#32, 2#32, 0x80000180#32, 0#32) := by decide
theorem test_step_interrupt_before_syscall :
    (stepped ({ start with status := 0x0000FF01#32, cause := 0x00000300#32 }.placed 0x0000000C#32)).map
        (fun t => (t.cause, t.epc, t.status, t.pc)) =
      some (0x00000300#32, 0x00400000#32, 0x0000FF03#32, 0x80000180#32) := by decide
theorem test_step_interrupt_line_in_a_delay_slot :
    (stepped ({ start with
        pc := 0x00400004#32, npc := 0x00400010#32, inDs := true, status := 0x00000401#32
        inputs := [⟨1#6, []⟩] }.placed 0#32)).map (fun t => (t.cause, t.epc, t.status, t.pc, t.inDs)) =
      some (0x80000400#32, 0x00400000#32, 0x00000403#32, 0x80000180#32, false) := by decide
theorem test_step_nested_exception_keeps_epc :
    (stepped ({ start with
        status := 2#32, cause := 0x00000020#32, epc := 0x00400010#32 }.placed 0x8C080001#32)).map
        (fun t => (t.cause, t.epc, t.status, t.badVAddr, t.pc)) =
      some (0x00000010#32, 0x00400010#32, 2#32, 1#32, 0x80000180#32) := by decide
theorem test_step_refuses_must_be_zero : stopped (start.placed 0x012A4060#32) = some .mustBeZeroField := by decide
theorem test_step_refuses_unassigned : stopped (start.placed 0x70000000#32) = some .unassignedWord := by decide
theorem test_step_unassigned_raises :
    (stepped ({ start with plat := { testPlatform with blankIsRi := true } }.placed 0x46800001#32)).map
        (fun t => (t.cause, t.pc)) = some (0x00000028#32, 0x80000180#32) := by decide
theorem test_step_external_write_clears_the_link :
    (stepped ({ (start.withX [(9#5, 0x10010000#32)]).setLink 0x10010004#32 with
        inputs := [⟨0#6, [(0x10010006#32, 1#8)]⟩] }.placed 0xE1280004#32)).map
        (fun t => (t.x 8#5, t.llBit, t.byte 0x10010006#32)) = some (0#32, false, 1#8) := by decide

/-- The order of 60_exceptions.md R397: what makes the decoded instruction refused comes before CpU (log entry 16). -/
theorem test_step_refusal_before_cpu :
    stopped ({ start with status := 0x10#32 }.placed 0x40084800#32) = some .undescribedControlRegister ∧
    stopped ({ start with status := 0x10#32, inDs := true }.placed 0x42000018#32) = some .transferInDelaySlot := by
  decide

/-- 20_memory.md R73: `Mapped(addr, n, kind)` may hold for the words of a region and not for its bytes, and a doubleword
is two words (R71). -/
theorem test_access_width :
    serves { testPlatform with mapped := [⟨0x10010000, 8, false, true, true, [4]⟩] } .load 0x10010000#32 8 = true ∧
    serves { testPlatform with mapped := [⟨0x10010000, 8, false, true, true, [4]⟩] } .load 0x10010004#32 4 = true ∧
    serves { testPlatform with mapped := [⟨0x10010000, 8, false, true, true, [4]⟩] } .load 0x10010000#32 1 = false ∧
    serves { testPlatform with busError := [⟨0x10010003, 1, false, true, true, [2]⟩] } .load 0x10010002#32 2 = false ∧
    serves { testPlatform with busError := [⟨0x10010003, 1, false, true, true, [2]⟩] } .load 0x10010000#32 4 = true := by
  decide

/-- 20_memory.md R78: no other agent writes a byte mapped for no kind of access (log entry 24). -/
theorem test_external_write_needs_a_mapped_byte :
    mapsByte { testPlatform with mapped := [⟨0, 4, false, false, false, [1]⟩] } 0 = false ∧
    mapsByte { testPlatform with mapped := [⟨0, 4, false, false, true, [4]⟩] } 3 = true := by decide

/-- 10_state.md R43: reset on a platform with its own RESET_PC, and with two interrupt lines raised. -/
theorem test_reset_on_a_platform :
    (State.resetOn { testPlatform with resetPc := 0x00400000#32 } 0x21#6).pc = 0x00400000#32 ∧
    (State.resetOn { testPlatform with resetPc := 0x00400000#32 } 0x21#6).cause = 0x00008400#32 := by decide

/-! ### Witnesses: concrete states and operands that meet the hypotheses of the statements, clause by clause, at the
ends of their ranges -/

theorem witness_EveryDecodedWordIsAnEncoding :
    decode 0xF7A2FFF8#32 = .instr (.sdc1 2#5 29#5 0xFFF8#16) := by decide

theorem witness_UnassignedWords :
    ¬ assignedSelector 0xFC000000#32 ∧
    (start.placed 0xFC000000#32).beginStep.interruptPending = false ∧
    (start.placed 0xFC000000#32).beginStep.fetch = .word 0xFC000000#32 ∧
    (start.placed 0xFC000000#32).plat.blankIsRi = false := by
  refine ⟨?_, by decide⟩
  unfold assignedSelector
  decide

theorem witness_UnassignedWords_raises :
    ({ start with plat := { testPlatform with blankIsRi := true } }.placed 0x04000000#32).beginStep.fetch =
      .word 0x04000000#32 ∧ ¬ assignedSelector 0x04000000#32 := by
  refine ⟨by decide, ?_⟩
  unfold assignedSelector
  decide

theorem witness_MustBeZeroFields :
    assignedSelector 0x19010003#32 ∧ (∀ i, encode i ≠ 0x19010003#32) ∧
    (start.placed 0x19010003#32).beginStep.interruptPending = false ∧
    (start.placed 0x19010003#32).beginStep.fetch = .word 0x19010003#32 := by
  refine ⟨?_, ?_, by decide⟩
  · unfold assignedSelector
    decide
  · intro i h
    have h1 : opcodeField (encode i) = 0x06#6 := by rw [h]; decide
    have h2 : rtField (encode i) = 1#5 := by rw [h]; decide
    cases i <;> simp [encode] at h1 h2

theorem witness_StepRunsTheDecodedWord :
    (start.placed 0x012A4020#32).beginStep.interruptPending = false ∧
    (start.placed 0x012A4020#32).beginStep.pc.toNat % 4 = 0 ∧
    ¬ aboveLimit (start.placed 0x012A4020#32).beginStep (start.placed 0x012A4020#32).beginStep.pc ∧
    served (start.placed 0x012A4020#32).beginStep .fetch (start.placed 0x012A4020#32).beginStep.pc 4 ∧
    (∀ k, k < 4 → ((start.placed 0x012A4020#32).beginStep.pc + BitVec.ofNat 32 k).toNat ∉
      (start.placed 0x012A4020#32).beginStep.stored) ∧
    decode (wordAt (start.placed 0x012A4020#32).beginStep (start.placed 0x012A4020#32).beginStep.pc) =
      .instr (.add 8#5 9#5 10#5) := by
  unfold aboveLimit inUserMode served
  decide

theorem witness_BeforeEachStep :
    start.inputs = [] ∧ ∃ i rest, { start with inputs := [⟨0x3F#6, [(0x10010000#32, 7#8)]⟩] }.inputs = i :: rest :=
  ⟨rfl, _, _, rfl⟩

theorem witness_InterruptTaken :
    (∃ k, k < 8 ∧ { start with status := 0x00008001#32, cause := 0x00008000#32 }.beginStep.cause.getLsbD (8 + k) = true ∧
      { start with status := 0x00008001#32, cause := 0x00008000#32 }.beginStep.status.getLsbD (8 + k) = true) ∧
    { start with status := 0x00008001#32, cause := 0x00008000#32 }.beginStep.status.getLsbD 0 = true ∧
    { start with status := 0x00008001#32, cause := 0x00008000#32 }.beginStep.status.getLsbD 1 = false ∧
    start.beginStep.status.getLsbD 0 = false := by decide

theorem witness_FetchAddressError :
    { start with pc := 0x00400002#32 }.beginStep.interruptPending = false ∧
    { start with pc := 0x00400002#32 }.beginStep.pc.toNat % 4 ≠ 0 ∧
    aboveLimit { start with pc := 0x80000000#32, status := 0x10#32 }.beginStep 0x80000000#32 := by
  unfold aboveLimit inUserMode
  decide

theorem witness_FetchAddressError_invariant :
    State.Inv { start with pc := 0x00400002#32, npc := 0x00400006#32 } ∧
    { start with pc := 0x00400002#32, npc := 0x00400006#32 }.beginStep.pc.toNat % 4 ≠ 0 ∧
    { start with pc := 0x00400002#32, npc := 0x00400006#32 }.beginStep.status.getLsbD 1 = false := by
  refine ⟨?_, by decide⟩
  constructor <;> decide

theorem witness_FetchBusError :
    { start with pc := 0x00410000#32 }.beginStep.interruptPending = false ∧
    { start with pc := 0x00410000#32 }.beginStep.pc.toNat % 4 = 0 ∧
    ¬ aboveLimit { start with pc := 0x00410000#32 }.beginStep 0x00410000#32 ∧
    ¬ served { start with pc := 0x00410000#32 }.beginStep .fetch 0x00410000#32 4 := by
  unfold aboveLimit inUserMode served
  decide

theorem witness_FetchOfStoredBytes :
    (start.write8 0x00400003#32 0#8).beginStep.interruptPending = false ∧
    ¬ aboveLimit (start.write8 0x00400003#32 0#8).beginStep 0x00400000#32 ∧
    served (start.write8 0x00400003#32 0#8).beginStep .fetch 0x00400000#32 4 ∧
    (∃ k, k < 4 ∧ ((start.write8 0x00400003#32 0#8).beginStep.pc + BitVec.ofNat 32 k).toNat ∈
      (start.write8 0x00400003#32 0#8).beginStep.stored) ∧
    (start.write8 0x00400003#32 0#8).plat.coherentIfetch = false := by
  unfold aboveLimit inUserMode served
  decide

theorem witness_FetchOfStoredBytes_coherent :
    { start with plat := { testPlatform with coherentIfetch := true } }.plat.coherentIfetch = true ∧
    decode (wordAt ({ start with plat := { testPlatform with coherentIfetch := true } }.write32
      0x00400000#32 0x0000000F#32).beginStep 0x00400000#32) = .instr .sync := by decide

theorem witness_TransferInDelaySlotRefused :
    { start with inDs := true }.inDs = true ∧ { start with status := 0x10#32, inDs := true }.inDs = true := by decide

theorem witness_EveryStepKeepsTheInvariant :
    State.Inv (State.reset.placed 0x34088001#32) ∧ (stepped (State.reset.placed 0x34088001#32)).isSome = true := by
  refine ⟨?_, by decide⟩
  constructor <;> decide

theorem witness_RegisterZero :
    ((start.withX [(9#5, 0x7FFFFFFF#32), (10#5, 1#32)]).x 9#5).toInt +
      ((start.withX [(9#5, 0x7FFFFFFF#32), (10#5, 1#32)]).x 10#5).toInt = 2 ^ 31 ∧
    ((start.withX [(9#5, 0x80000000#32), (10#5, 0xFFFFFFFF#32)]).x 9#5).toInt +
      ((start.withX [(9#5, 0x80000000#32), (10#5, 0xFFFFFFFF#32)]).x 10#5).toInt = -2 ^ 31 - 1 ∧
    ((start.withX [(9#5, 0x7FFFFFFF#32)]).x 9#5).toInt + ((start.withX [(9#5, 0x7FFFFFFF#32)]).x 10#5).toInt =
      2 ^ 31 - 1 := by decide

theorem witness_HiLoAndFpcondWriters : ∃ t, exec (.mfhi 8#5) start = .next t := ⟨_, rfl⟩

theorem witness_MemoryWriters : ∃ t, exec .sync start = .next t := ⟨_, rfl⟩

theorem witness_UserModeRaisesPrivilegeOnlyByException :
    inUserMode { start with status := 0x10#32 } ∧
    (∃ t, exec .sync { start with status := 0x10#32 } = .next t) ∧
    ∃ t, exec (.syscall 0#20) { start with status := 0x10#32 } = .next t := by
  refine ⟨?_, ⟨_, rfl⟩, ⟨_, rfl⟩⟩
  unfold inUserMode
  decide

theorem witness_NestedException : { start with status := 0x0000FF13#32 }.status.getLsbD 1 = true := by decide

theorem witness_ExceptionReturn :
    inUserMode { start with status := 0x10#32 } ∧ ¬ inUserMode { start with status := 0x12#32 } ∧
    { start with status := 0x12#32 }.inDs = false ∧ { start with status := 0x10#32 }.inDs = false ∧
    { start with status := 0x10#32, inDs := true }.inDs = true := by
  unfold inUserMode
  decide

theorem witness_TrapInstructions :
    ((start.withX [(9#5, 0x80000000#32)]).x 9#5).toInt < ((start.withX [(9#5, 0x80000000#32)]).x 10#5).toInt ∧
    ((start.withX [(9#5, 0x80000000#32)]).x 10#5).toNat < ((start.withX [(9#5, 0x80000000#32)]).x 9#5).toNat ∧
    ((start.withX [(9#5, 5#32)]).x 10#5).toInt ≤ ((start.withX [(9#5, 5#32)]).x 9#5).toInt ∧
    (start.withX [(9#5, 5#32)]).x 9#5 ≠ (start.withX [(9#5, 5#32)]).x 10#5 ∧ start.x 9#5 = start.x 10#5 ∧
    ¬ (start.x 9#5).toNat < (start.x 10#5).toNat := by decide

theorem witness_ReadControlRegister :
    inUserMode { start with status := 0x10#32 } ∧ ¬ inUserMode start ∧ State.Inv start ∧
    ((11#5 : RegNum) ≠ 8#5 ∧ (11#5 : RegNum) ≠ 12#5 ∧ (11#5 : RegNum) ≠ 13#5 ∧ (11#5 : RegNum) ≠ 14#5) := by
  refine ⟨?_, ?_, ?_, by decide⟩
  · unfold inUserMode
    decide
  · unfold inUserMode
    decide
  · constructor <;> decide

theorem witness_WriteControlRegister :
    inUserMode { start with status := 0xFFFFFFFD#32 } ∧ ¬ inUserMode { start with status := 0x12#32 } ∧
    ((15#5 : RegNum) ≠ 8#5 ∧ (15#5 : RegNum) ≠ 12#5 ∧ (15#5 : RegNum) ≠ 13#5 ∧ (15#5 : RegNum) ≠ 14#5) := by
  unfold inUserMode
  decide

theorem witness_InstructionsWithoutEffect : inUserMode { start with status := 0x10#32 } ∧ ¬ inUserMode start := by
  unfold inUserMode
  decide

theorem witness_RegisterOperations : start.x 10#5 = 0#32 ∧ (start.withX [(10#5, 1#32)]).x 10#5 ≠ 0#32 := by decide

theorem witness_AddSubWithOverflow :
    ((start.withX [(9#5, 0x7FFFFFFE#32)]).x 9#5).toInt + ((1#16).signExtend 32).toInt = 2 ^ 31 - 1 ∧
    ((start.withX [(9#5, 0x7FFFFFFF#32)]).x 9#5).toInt + ((1#16).signExtend 32).toInt = 2 ^ 31 ∧
    ((start.withX [(9#5, 0x80000000#32)]).x 9#5).toInt + ((0xFFFF#16).signExtend 32).toInt = -2 ^ 31 - 1 ∧
    ((start.withX [(9#5, 0x80000000#32)]).x 9#5).toInt - ((start.withX [(9#5, 0x80000000#32)]).x 10#5).toInt =
      -2 ^ 31 ∧
    ((start.withX [(10#5, 0x80000000#32)]).x 9#5).toInt - ((start.withX [(10#5, 0x80000000#32)]).x 10#5).toInt =
      2 ^ 31 := by decide

theorem witness_ConditionalBranches : start.inDs = false ∧ { start with inDs := true }.inDs = true := by decide

theorem witness_JumpsAndLinks :
    start.inDs = false ∧ (31#5 : RegNum) ≠ 9#5 ∧ (9#5 : RegNum) = 9#5 ∧ (9#5 : RegNum) ≠ 0#5 := by decide

theorem witness_ByteAndHalfwordLoads :
    accessOk start .load 1 0x1001FFFF#32 0x1001FFFF#32 1 ∧ accessOk start .load 2 0x1001FFFE#32 0x1001FFFE#32 2 ∧
    (0x10010001#32).toNat % 2 ≠ 0 ∧ aboveLimit { start with status := 0x10#32 } 0x80000000#32 ∧
    ¬ served start .load 0x10020000#32 1 ∧
    ((start.withX [(9#5, 0x10020000#32)]).x 9#5 + (0xFFFF#16).signExtend 32) = 0x1001FFFF#32 := by
  unfold accessOk aboveLimit inUserMode served
  decide

theorem witness_WordAndDoubleLoads :
    accessOk start .load 4 0x1001FFFC#32 0x1001FFFC#32 4 ∧ accessOk start .load 8 0x1001FFF8#32 0x1001FFF8#32 8 ∧
    (0x10010002#32).toNat % 4 ≠ 0 ∧ (0x10010004#32).toNat % 8 ≠ 0 ∧ ¬ served start .load 0x10020000#32 8 ∧
    (30#5 : RegNum).getLsbD 0 = false ∧ (31#5 : RegNum).getLsbD 0 = true := by
  unfold accessOk aboveLimit inUserMode served
  decide

theorem witness_PartialWordLoads :
    accessOk start .load 1 0x10010000#32 0x10010000#32 4 ∧ accessOk start .load 1 0x1001FFFF#32 0x1001FFFF#32 1 ∧
    accessOk start .load 1 0x1001FFFF#32 0x1001FFFC#32 4 ∧
    (0x1001FFFF#32 : Word) &&& ~~~3#32 = 0x1001FFFC#32 ∧ ((0x1001FFFF#32 : Word) &&& 3#32).toNat = 3 := by
  unfold accessOk aboveLimit inUserMode served
  decide

theorem witness_Stores :
    accessOk start .store 1 0x1001FFFF#32 0x1001FFFF#32 1 ∧ accessOk start .store 2 0x10010002#32 0x10010002#32 2 ∧
    accessOk start .store 4 0x10010004#32 0x10010004#32 4 ∧ accessOk start .store 8 0x1001FFF8#32 0x1001FFF8#32 8 ∧
    aboveLimit { start with status := 0x10#32 } 0xFFFFFFFC#32 ∧ ¬ served start .store 0x20000000#32 4 := by
  unfold accessOk aboveLimit inUserMode served
  decide

theorem witness_PartialWordStores :
    accessOk start .store 1 0x10010003#32 0x10010003#32 1 ∧ accessOk start .store 1 0x10010003#32 0x10010000#32 4 ∧
    ¬ served start .store 0x0040FFFF#32 2 := by
  unfold accessOk aboveLimit inUserMode served
  decide

theorem witness_StoreConditional :
    accessOk start .store 4 0x10010004#32 0x10010004#32 4 ∧
    start.llBit = false ∧ (start.setLink 0x10010004#32).llBit = true ∧
    (start.setLink 0x10010004#32).llAddr = 0x10010004#32 ∧ (start.setLink 0x10010004#32).llAddr ≠ 0x10010008#32 ∧
    start.plat.scMayFail = false ∧ (start.setLink 0x10010004#32).llTouched = false ∧
    ((start.setLink 0x10010004#32).write8 0x10010007#32 0#8).llTouched = true ∧
    (0x10010006#32).toNat % 4 ≠ 0 := by
  unfold accessOk aboveLimit inUserMode served
  decide

theorem witness_WhatClearsTheLink :
    (∃ t, exec .eret (start.setLink 4#32) = .next t) ∧ mappedByte start.plat 0x10010003#32 = true ∧
    mappedByte start.plat 0x10020000#32 = false := by
  refine ⟨⟨_, rfl⟩, by decide, by decide⟩

theorem witness_WhatClearsTheLink_ll :
    (∃ t, exec (.ll 8#5 0#5 0#16) { start with plat := Config.platformDefault } = .next t) ∧
    accessOk { start with plat := Config.platformDefault } .load 4 0#32 0#32 4 ∧
    (∃ t, exec (.ll 8#5 0#5 2#16) start = .next t) ∧ ¬ accessOk start .load 4 2#32 2#32 4 := by
  refine ⟨⟨_, rfl⟩, ?_, ⟨_, rfl⟩, ?_⟩
  · unfold accessOk aboveLimit inUserMode served
    decide
  · unfold accessOk aboveLimit inUserMode served
    decide

theorem witness_WhatClearsTheLink_sc :
    accessOk ((start.setLink 0x10010004#32).write8 0x10010007#32 0#8) .store 4 0x10010004#32 0x10010004#32 4 ∧
    ((start.setLink 0x10010004#32).write8 0x10010007#32 0#8).llBit = true ∧
    ((start.setLink 0x10010004#32).write8 0x10010007#32 0#8).llAddr = 0x10010004#32 ∧
    ((start.setLink 0x10010004#32).write8 0x10010007#32 0#8).llTouched = true := by
  unfold accessOk aboveLimit inUserMode served
  decide

theorem witness_UnalignedWordIdiom :
    ¬ aboveLimit (start.withX [(9#5, 0x1001FFFC#32)]) ((start.withX [(9#5, 0x1001FFFC#32)]).x 9#5) ∧
    ¬ aboveLimit (start.withX [(9#5, 0x1001FFFC#32)]) ((start.withX [(9#5, 0x1001FFFC#32)]).x 9#5 + 3#32) ∧
    (8#5 : RegNum) ≠ 0#5 ∧ (9#5 : RegNum) ≠ 8#5 ∧
    served (start.withX [(9#5, 0x1001FFFC#32)]) .load ((start.withX [(9#5, 0x1001FFFC#32)]).x 9#5) (4 - 0) ∧
    ((0x1001FFFF#32 : Word) &&& 3#32).toNat = 3 ∧
    served (start.withX [(9#5, 0x1001FFFC#32)]) .load (0x1001FFFF#32 &&& ~~~3#32) (3 + 1) ∧
    ((0x10010001#32 : Word) &&& 3#32).toNat = 1 ∧ ((0x10010004#32 : Word) &&& 3#32).toNat = 0 ∧
    served (start.withX [(9#5, 0x10010001#32)]) .store ((start.withX [(9#5, 0x10010001#32)]).x 9#5) (4 - 1) ∧
    served (start.withX [(9#5, 0x10010001#32)]) .store (0x10010004#32 &&& ~~~3#32) (0 + 1) := by
  unfold aboveLimit inUserMode served
  decide

theorem witness_Division :
    ((start.withX [(9#5, 0x80000000#32), (10#5, 0xFFFFFFFF#32)]).x 9#5).toInt = -2 ^ 31 ∧
    ((start.withX [(9#5, 0x80000000#32), (10#5, 0xFFFFFFFF#32)]).x 10#5).toInt = -1 ∧
    (start.x 10#5).toInt = 0 := by decide

theorem witness_PatternValues :
    (fpExpField .single 0x7FC00000 = maxExp .single ∧ fpFracField .single 0x7FC00000 ≠ 0) ∧
    (fpExpField .double 0xFFF0000000000000 = maxExp .double ∧ fpFracField .double 0xFFF0000000000000 = 0) ∧
    (fpExpField .single 0x80000000 = 0 ∧ fpFracField .single 0x80000000 = 0) ∧
    (fpExpField .single 1 = 0 ∧ fpFracField .single 1 ≠ 0) ∧
    (fpExpField .single 0x00800000 = 1 ∧ fpExpField .single 0x7F7FFFFF = maxExp .single - 1) := by decide

theorem witness_RoundingGivesOnePattern :
    rounds .double ((if true then -1 else 1) * (((1 : Nat) : ℝ) / ((3 : Nat) : ℝ))) false
      (roundMagnitude .double true 1 3) ∧ roundMagnitude .double true 1 3 = 0xBFD5555555555555 ∧
    rounds .single (((3 : ℤ) : ℝ) * (2 : ℝ) ^ (200 : ℤ)) false (roundScaled .single 3 200 false) ∧
    rounds .single (((-1 : ℤ) : ℝ) * (2 : ℝ) ^ (-200 : ℤ)) false (roundScaled .single (-1) (-200) false) ∧
    roundScaled .single 3 200 false = 0x7F800000 ∧ roundScaled .single (-1) (-200) false = 0x80000000 :=
  ⟨roundMagnitude_rounds (by decide) (by decide), by decide, roundScaled_rounds, roundScaled_rounds, by decide,
    by decide⟩

theorem witness_even_registers :
    (0#5 : RegNum).getLsbD 0 = false ∧ (30#5 : RegNum).getLsbD 0 = false ∧ (31#5 : RegNum).getLsbD 0 = true ∧
    (start.x 8#5 = 0#32 ∧ (start.withX [(8#5, 1#32)]).x 8#5 ≠ 0#32) := by decide

theorem witness_RootAbsoluteNegate :
    isNaNPattern .single 0xFFC00001 ∧ ¬ isNaNPattern .single 0xC0200000 ∧
    isNaNPattern .double 0x7FF0000000000001 ∧ ¬ isNaNPattern .double 0x7FF0000000000000 := by
  unfold isNaNPattern
  decide

theorem witness_FormatConversions : isNumber (fpValue .single 0x00000001) ∧ isNumber (fpValue .single 0x7F7FFFFF) :=
  ⟨trivial, trivial⟩

theorem witness_ConversionsToWord :
    toWord .single .nearest 0x4EFFFFFF = some 0x7FFFFF80#32 ∧ toWord .single .nearest 0x4F000000 = none ∧
    toWord .double .down 0xC1E0000000000000 = some 0x80000000#32 := by decide

theorem witness_Compares :
    fpCompare .single 0x80000001 0x00000000 = .less ∧ fpCompare .single 0x00000000 0x80000000 = .equal ∧
    fpCompare .double 0x7FF0000000000000 0xFFF0000000000000 = .greater ∧
    fpCompare .single 0x7FC00000 0x7FC00000 = .unordered := by decide

end Sys2Proof.Machine
end

section
/-! The operands the model refuses: a double named by an odd register number (R254, log entry 17), and the two
conversions of a format to itself (R287, R288, log entry 19). -/

namespace Sys2Proof.Machine

/-! ### The words of the two conversions -/

/-- Opcode 0x11 with `fmt` 0x10 is read by the single-precision map (R113). -/
theorem decode_packR_cop1Single (ft fs fd : BitVec 5) (fn : BitVec 6) :
    decode (packR 0x11#6 0x10#5 ft fs fd fn) = decodeCop1Single (packR 0x11#6 0x10#5 ft fs fd fn) := by
  simp [decode, decodeCop1]

/-- Opcode 0x11 with `fmt` 0x11 is read by the double-precision map (R113). -/
theorem decode_packR_cop1Double (ft fs fd : BitVec 5) (fn : BitVec 6) :
    decode (packR 0x11#6 0x11#5 ft fs fd fn) = decodeCop1Double (packR 0x11#6 0x11#5 ft fs fd fn) := by
  simp [decode, decodeCop1]

theorem hasWord_cvtSS (fd fs : RegNum) : hasWord (.cvtSS fd fs) (packR 0x11#6 0x10#5 0#5 fs fd 0x20#6) :=
  ⟨rfl, by simp [decode_packR_cop1Single, decodeCop1Single, ifZero_instr]⟩

theorem hasWord_cvtDD (fd fs : RegNum) : hasWord (.cvtDD fd fs) (packR 0x11#6 0x11#5 0#5 fs fd 0x21#6) :=
  ⟨rfl, by simp [decode_packR_cop1Double, decodeCop1Double, ifZero_instr]⟩

/-! ### Odd register numbers -/

/-- The register check stands before everything else the instruction does, so one odd register decides. -/
theorem refuses_of_odd_double {i : Instr} {s : State} {names : List RegNum} {run : Result}
    (hexec : exec i s = withDoubles names run) (hodd : ∃ n ∈ names, n.getLsbD 0 = true) :
    refuses i s .oddDoubleRegister :=
  hexec.trans (withDoubles_odd (by simpa [evenReg] using hodd))

/-- Settles O60: the two conversions stop in every state; every other instruction of the list is `withDoubles` of the
registers that name its doubles, so an odd one among them refuses it. -/
theorem refusedOperands : Obligations.RefusedOperands := by
  unfold Obligations.RefusedOperands
  intro s fd fs ft rt rs imm
  refine ⟨⟨hasWord_cvtSS fd fs, rfl⟩, ⟨hasWord_cvtDD fd fs, rfl⟩, fun binary => ?_, fun unary => ?_, fun source => ?_,
    fun target => ?_, fun compare => ?_, fun memory => ?_⟩
  · have hodd : ∃ n ∈ [fd, fs, ft], n.getLsbD 0 = true := by simpa using binary
    and_intros <;> exact refuses_of_odd_double rfl hodd
  · have hodd : ∃ n ∈ [fd, fs], n.getLsbD 0 = true := by simpa using unary
    and_intros <;> exact refuses_of_odd_double rfl hodd
  · have hodd : ∃ n ∈ [fs], n.getLsbD 0 = true := by simpa using source
    and_intros <;> exact refuses_of_odd_double rfl hodd
  · have hodd : ∃ n ∈ [fd], n.getLsbD 0 = true := by simpa using target
    exact refuses_of_odd_double rfl hodd
  · have hodd : ∃ n ∈ [fs, ft], n.getLsbD 0 = true := by simpa using compare
    and_intros <;> exact refuses_of_odd_double rfl hodd
  · have hodd : ∃ n ∈ [ft], n.getLsbD 0 = true := by simpa using memory
    and_intros <;> exact refuses_of_odd_double rfl hodd

end Sys2Proof.Machine
end

section
/-! The fetch of a step: the instruction it brings (R70), the address error of the pc (R67, R74), and the fetch from a
byte that the run has stored (R85). -/

namespace Sys2Proof.Machine

/-! ### What stands before a step leaves alone -/

@[simp] theorem beginStep_pc (s : State) : s.beginStep.pc = s.pc := by
  obtain ⟨m, l, k, c, h⟩ := beginStep_frame s
  rw [h]

@[simp] theorem beginStep_inDs (s : State) : s.beginStep.inDs = s.inDs := by
  obtain ⟨m, l, k, c, h⟩ := beginStep_frame s
  rw [h]

@[simp] theorem beginStep_plat (s : State) : s.beginStep.plat = s.plat := by
  obtain ⟨m, l, k, c, h⟩ := beginStep_frame s
  rw [h]

/-! ### What a fetch gives -/

theorem storedWord_iff (s : State) (a : Word) :
    s.storedWord a = true ↔ ∃ k, k < 4 ∧ (a + BitVec.ofNat 32 k).toNat ∈ s.stored := by
  simp only [State.storedWord, List.any_eq_true, List.mem_range, List.contains_iff_mem]

theorem storedWord_eq_false_iff (s : State) (a : Word) :
    s.storedWord a = false ↔ ∀ k, k < 4 → (a + BitVec.ofNat 32 k).toNat ∉ s.stored := by
  rw [← Bool.not_eq_true, storedWord_iff]
  simp only [not_exists, not_and]

/-- The alignment check comes first and the user limit second, so either failure is the address error (R67, R74). -/
theorem fetch_addressError {s : State} (h : s.pc.toNat % 4 ≠ 0 ∨ aboveLimit s s.pc) : s.fetch = .addressError := by
  unfold State.fetch
  by_cases hmis : s.pc.toNat % 4 ≠ 0
  · rw [if_pos hmis]
  · rw [if_neg hmis, if_pos ((aboveUserLimit_iff ..).2 (h.resolve_left hmis))]

/-- Past the checks of R67 and R68, a stored byte stops a fetch that is not coherent (R85). -/
theorem fetch_storedByte {s : State} (haligned : s.pc.toNat % 4 = 0) (hlimit : ¬ aboveLimit s s.pc)
    (hserved : served s .fetch s.pc 4) (hplat : s.plat.coherentIfetch = false) (hstored : s.storedWord s.pc = true) :
    s.fetch = .storedByte := by
  unfold State.fetch
  rw [if_neg (not_not.2 haligned), if_neg (by rwa [aboveUserLimit_iff]),
    if_neg (by simpa using (serves_iff ..).2 hserved), if_pos (by simp [hplat, hstored])]

/-! ### What a step without an interrupt is, by what its fetch gives -/

theorem step_eq_fetchExecute {s : State} (hint : s.beginStep.interruptPending = false) :
    step s = s.beginStep.fetchExecute := by
  rw [step, hint, if_neg Bool.false_ne_true]

theorem step_of_fetch_word {s : State} {w : Word} {i : Instr} (hint : s.beginStep.interruptPending = false)
    (hfetch : s.beginStep.fetch = .word w) (hdecode : decode w = .instr i) : step s = exec i s.beginStep := by
  rw [step_eq_fetchExecute hint, State.fetchExecute, hfetch]
  show s.beginStep.executeWord w = _
  rw [State.executeWord, hdecode]

theorem step_of_fetch_storedByte {s : State} (hint : s.beginStep.interruptPending = false)
    (hfetch : s.beginStep.fetch = .storedByte) : step s = .refused .fetchOfStoredByte := by
  rw [step_eq_fetchExecute hint, State.fetchExecute, hfetch]

theorem step_of_fetch_addressError {s : State} (hint : s.beginStep.interruptPending = false)
    (hfetch : s.beginStep.fetch = .addressError) :
    step s = .next (s.beginStep.trapEntry .adel (some s.beginStep.pc)) := by
  rw [step_eq_fetchExecute hint, State.fetchExecute, hfetch]
  rfl

/-! ### The statements -/

/-- Settles O7: the hypotheses are the checks of the fetch, so it gives the word at the pc, and the step executes what
that word decodes to. -/
theorem stepRunsTheDecodedWord : Obligations.StepRunsTheDecodedWord := by
  unfold Obligations.StepRunsTheDecodedWord
  intro s i hint haligned hlimit hserved hcoherent hdecode
  have hfetch : s.beginStep.fetch = .word (s.beginStep.read32 s.beginStep.pc) :=
    fetch_word haligned hlimit hserved (hcoherent.imp_right (storedWord_eq_false_iff ..).2)
  exact step_of_fetch_word hint hfetch hdecode

/-- A delay slot of a state with the invariant has an aligned pc, so a misaligned one is in none (R67). -/
theorem inDs_eq_false_of_misaligned {s : State} (hinv : s.Inv) (hmis : s.pc.toNat % 4 ≠ 0) : s.inDs = false := by
  by_contra hds
  exact hmis (aligned_iff.2 (hinv.slotAligned (by simpa using hds)))

/-- Settles O10: the fetch is an address error, so the step is trap entry with AdEL; outside a delay slot that entry
keeps the pc as it stands. -/
theorem fetchAddressError : Obligations.FetchAddressError := by
  unfold Obligations.FetchAddressError
  intro s hint
  have hadel (hbad : s.beginStep.pc.toNat % 4 ≠ 0 ∨ aboveLimit s.beginStep s.beginStep.pc) :
      ∃ t, step s = .next t ∧ enters s.beginStep t 4#5 (some s.beginStep.pc) :=
    ⟨_, step_of_fetch_addressError hint (fetch_addressError hbad), enters_trapEntry s.beginStep .adel _⟩
  refine ⟨hadel, fun hinv hmis => ?_⟩
  have hslot : s.inDs = false := inDs_eq_false_of_misaligned hinv (beginStep_pc s ▸ hmis)
  refine ⟨(beginStep_inDs s).trans hslot, fun hclear => ?_⟩
  have hel : s.beginStep.el = false := hclear
  obtain ⟨t, hstep, hepc, hbd, -⟩ := hadel (.inl hmis)
  exact ⟨t, hstep, by simpa [hel, hslot] using hepc, by simpa [hel, hslot] using hbd⟩

/-- Settles O12: without coherent fetches the fetch stops at the stored byte; with them the record of stores is not
looked at, and the step is that of O7. -/
theorem fetchOfStoredBytes : Obligations.FetchOfStoredBytes := by
  unfold Obligations.FetchOfStoredBytes
  intro s hint haligned hlimit hserved hstored
  refine ⟨fun hplat => ?_, fun hplat i hdecode => ?_⟩
  · have hfetch : s.beginStep.fetch = .storedByte :=
      fetch_storedByte haligned hlimit hserved (by rw [beginStep_plat, hplat]) ((storedWord_iff ..).2 hstored)
    exact step_of_fetch_storedByte hint hfetch
  · have hcoherent : s.beginStep.plat.coherentIfetch = true := by rw [beginStep_plat, hplat]
    exact stepRunsTheDecodedWord s i hint haligned hlimit hserved (.inl hcoherent) hdecode

end Sys2Proof.Machine
end

section
/-! The decoder and the encoder: a word decodes to an instruction exactly when it encodes it (R116), and is unassigned
exactly outside the maps R110 to R114 (R118); what is left has a non-zero must-be-zero field (R119). Then what a step
does with a word that decodes to no instruction, and the word 0 (R117). -/

namespace Sys2Proof.Machine

/-! ### A packed word is known by its fields -/

theorem packR_eq_iff {op fn : BitVec 6} {a b c d : BitVec 5} {w : Word} :
    packR op a b c d fn = w ↔ opcodeField w = op ∧ rsField w = a ∧ rtField w = b ∧ rdField w = c ∧
      shamtField w = d ∧ functField w = fn := by
  constructor
  · rintro rfl
    simp
  · rintro ⟨rfl, rfl, rfl, rfl, rfl, rfl⟩
    exact packR_fields w

theorem packI_eq_iff {op : BitVec 6} {a b : BitVec 5} {imm : Half} {w : Word} :
    packI op a b imm = w ↔ opcodeField w = op ∧ rsField w = a ∧ rtField w = b ∧ immField w = imm := by
  constructor
  · rintro rfl
    simp
  · rintro ⟨rfl, rfl, rfl, rfl⟩
    exact packI_fields w

theorem packJ_eq_iff {op : BitVec 6} {address : BitVec 26} {w : Word} :
    packJ op address = w ↔ opcodeField w = op ∧ addressField w = address := by
  constructor
  · rintro rfl
    simp
  · rintro ⟨rfl, rfl⟩
    exact packJ_fields w

theorem packCode_eq_iff {code : BitVec 20} {fn : BitVec 6} {w : Word} :
    packCode code fn = w ↔ opcodeField w = 0x00#6 ∧ codeField w = code ∧ functField w = fn := by
  constructor
  · rintro rfl
    simp
  · rintro ⟨hop, rfl, rfl⟩
    exact packCode_fields w hop

theorem packTrap_eq_iff {a b : BitVec 5} {code : BitVec 10} {fn : BitVec 6} {w : Word} :
    packTrap a b code fn = w ↔
      opcodeField w = 0x00#6 ∧ rsField w = a ∧ rtField w = b ∧ trapCodeField w = code ∧ functField w = fn := by
  constructor
  · rintro rfl
    simp
  · rintro ⟨hop, rfl, rfl, rfl, rfl⟩
    exact packTrap_fields w hop

/-- A coprocessor-0 operation is its opcode, bit 25, bits 24:6 and its funct (R114). -/
theorem cop0Operation_fields (w : Word) :
    opcodeField w ++ BitVec.ofBool (w.getLsbD 25) ++ coField w ++ functField w = w := by
  unfold opcodeField coField functField
  refine BitVec.eq_of_getLsbD_eq fun i hi => ?_
  simp only [BitVec.getLsbD_append, BitVec.getLsbD_extractLsb']
  interval_cases i <;> simp

/-! ### The opcodes that a further map reads -/

theorem decode_of_special {w : Word} (hop : opcodeField w = 0x00#6) : decode w = decodeSpecial w := by
  simp [decode, hop]

theorem decode_of_cop0 {w : Word} (hop : opcodeField w = 0x10#6) : decode w = decodeCop0 w := by
  simp [decode, hop]

theorem decode_of_cop1 {w : Word} (hop : opcodeField w = 0x11#6) : decode w = decodeCop1 w := by
  simp [decode, hop]

/-! ### A word encodes the instruction that it decodes to

In each branch of a map the fields of the word are known: those of the selector by the branch, those that must be zero
by its test; the others are the operands. -/

theorem forall_ifZero_instr {zero : Bool} {j : Instr} {p : Instr → Prop} :
    (∀ i, ifZero zero j = .instr i → p i) ↔ (zero = true → p j) := by
  cases zero <;> simp [ifZero]

theorem forall_eq_instr {j : Instr} {p : Instr → Prop} : (∀ i, Decoded.instr j = .instr i → p i) ↔ p j := by
  simp

theorem encode_of_decodeSpecial {w : Word} (hop : opcodeField w = 0x00#6) :
    ∀ i, decodeSpecial w = .instr i → encode i = w := by
  unfold decodeSpecial
  split <;> simp only [forall_ifZero_instr, forall_eq_instr, reduceCtorEq, false_implies, implies_true]
  all_goals simp +contextual [*, encode, packR_eq_iff, packCode_eq_iff, packTrap_eq_iff]

theorem encode_of_decodeCop0Operation {w : Word} (hop : opcodeField w = 0x10#6) (hbit : w.getLsbD 25 = true) :
    ∀ i, decodeCop0Operation w = .instr i → encode i = w := by
  unfold decodeCop0Operation
  split
  case h_1 hfunct =>
    refine forall_ifZero_instr.2 fun hzero => ?_
    rw [← cop0Operation_fields w, hop, hbit, eq_of_beq hzero, hfunct]
    rfl
  case h_2 => simp

theorem encode_of_decodeCop0Move {w : Word} (hop : opcodeField w = 0x10#6) :
    ∀ i, decodeCop0Move w = .instr i → encode i = w := by
  unfold decodeCop0Move
  split <;> simp only [forall_ifZero_instr, reduceCtorEq, false_implies, implies_true]
  all_goals simp +contextual [*, encode, packR_eq_iff]

theorem encode_of_decodeCop0 {w : Word} (hop : opcodeField w = 0x10#6) :
    ∀ i, decodeCop0 w = .instr i → encode i = w := by
  unfold decodeCop0
  split
  case isTrue hbit => exact encode_of_decodeCop0Operation hop hbit
  case isFalse => exact encode_of_decodeCop0Move hop

theorem encode_of_decodeCop1Branch {w : Word} (hop : opcodeField w = 0x11#6) (hfmt : rsField w = 0x08#5) :
    ∀ i, decodeCop1Branch w = .instr i → encode i = w := by
  unfold decodeCop1Branch
  split <;> simp [*, encode, packI_eq_iff]

theorem encode_of_decodeCop1Single {w : Word} (hop : opcodeField w = 0x11#6) (hfmt : rsField w = 0x10#5) :
    ∀ i, decodeCop1Single w = .instr i → encode i = w := by
  unfold decodeCop1Single
  split <;> simp only [forall_ifZero_instr, forall_eq_instr, reduceCtorEq, false_implies, implies_true]
  all_goals simp +contextual [*, encode, packR_eq_iff]

theorem encode_of_decodeCop1Double {w : Word} (hop : opcodeField w = 0x11#6) (hfmt : rsField w = 0x11#5) :
    ∀ i, decodeCop1Double w = .instr i → encode i = w := by
  unfold decodeCop1Double
  split <;> simp only [forall_ifZero_instr, forall_eq_instr, reduceCtorEq, false_implies, implies_true]
  all_goals simp +contextual [*, encode, packR_eq_iff]

theorem encode_of_decodeCop1 {w : Word} (hop : opcodeField w = 0x11#6) :
    ∀ i, decodeCop1 w = .instr i → encode i = w := by
  unfold decodeCop1
  split
  case h_1 hfmt => exact encode_of_decodeCop1Branch hop hfmt
  case h_2 hfmt => exact encode_of_decodeCop1Single hop hfmt
  case h_3 hfmt => exact encode_of_decodeCop1Double hop hfmt
  case h_4 => simp

theorem encode_of_decode {w : Word} : ∀ i, decode w = .instr i → encode i = w := by
  unfold decode
  split
  case h_39 hop => exact encode_of_decodeSpecial hop
  case h_40 hop => exact encode_of_decodeCop0 hop
  case h_41 hop => exact encode_of_decodeCop1 hop
  case h_42 => simp
  all_goals simp only [forall_ifZero_instr, forall_eq_instr]
  all_goals simp +contextual [*, encode, packI_eq_iff, packJ_eq_iff]

/-! ### The word of an instruction decodes to it

The opcode of the word, and its `fmt`, leave only the instructions of one map. -/

theorem decodeSpecial_encode {i : Instr} (hop : opcodeField (encode i) = 0x00#6) :
    decodeSpecial (encode i) = .instr i := by
  cases i <;> simp [encode] at hop
  all_goals simp [encode, decodeSpecial, ifZero_instr]

theorem decodeCop0_encode {i : Instr} (hop : opcodeField (encode i) = 0x10#6) :
    decodeCop0 (encode i) = .instr i := by
  cases i <;> simp [encode] at hop
  case eret => decide
  all_goals simp [encode, decodeCop0, decodeCop0Move, ifZero_instr]

theorem decodeCop1Branch_encode {i : Instr} (hop : opcodeField (encode i) = 0x11#6)
    (hfmt : rsField (encode i) = 0x08#5) : decodeCop1Branch (encode i) = .instr i := by
  cases i <;> simp [encode] at hop hfmt
  all_goals simp [encode, decodeCop1Branch]

theorem decodeCop1Single_encode {i : Instr} (hop : opcodeField (encode i) = 0x11#6)
    (hfmt : rsField (encode i) = 0x10#5) : decodeCop1Single (encode i) = .instr i := by
  cases i <;> simp [encode] at hop hfmt
  all_goals simp [encode, decodeCop1Single, ifZero_instr]

theorem decodeCop1Double_encode {i : Instr} (hop : opcodeField (encode i) = 0x11#6)
    (hfmt : rsField (encode i) = 0x11#5) : decodeCop1Double (encode i) = .instr i := by
  cases i <;> simp [encode] at hop hfmt
  all_goals simp [encode, decodeCop1Double, ifZero_instr]

theorem decodeCop1_encode {i : Instr} (hop : opcodeField (encode i) = 0x11#6) :
    decodeCop1 (encode i) = .instr i := by
  unfold decodeCop1
  split
  case h_1 hfmt => exact decodeCop1Branch_encode hop hfmt
  case h_2 hfmt => exact decodeCop1Single_encode hop hfmt
  case h_3 hfmt => exact decodeCop1Double_encode hop hfmt
  case h_4 hbranch hsingle hdouble => cases i <;> simp [encode] at hop hbranch hsingle hdouble

theorem decode_encode (i : Instr) : decode (encode i) = .instr i := by
  by_cases hspecial : opcodeField (encode i) = 0x00#6
  · rw [decode_of_special hspecial, decodeSpecial_encode hspecial]
  by_cases hcop0 : opcodeField (encode i) = 0x10#6
  · rw [decode_of_cop0 hcop0, decodeCop0_encode hcop0]
  by_cases hcop1 : opcodeField (encode i) = 0x11#6
  · rw [decode_of_cop1 hcop1, decodeCop1_encode hcop1]
  cases i <;> simp [encode] at hspecial hcop0 hcop1
  all_goals simp [encode, decode, ifZero_instr]

/-- The decoder is the inverse of the encoder. -/
theorem decode_eq_instr_iff {w : Word} {i : Instr} : decode w = .instr i ↔ encode i = w :=
  ⟨encode_of_decode i, fun h => h ▸ decode_encode i⟩

theorem hasWord_encode (i : Instr) : hasWord i (encode i) := ⟨rfl, decode_encode i⟩

/-! ### The words outside the maps

A test of must-be-zero fields never makes a word unassigned, so the selector alone decides. `assignedSelector` writes
the fields out; the decoder names them. -/

theorem ifZero_ne_unassigned {zero : Bool} {i : Instr} : ifZero zero i ≠ .unassigned := by
  cases zero <;> simp [ifZero]

theorem extract_opcode (w : Word) : w.extractLsb' 26 6 = opcodeField w := rfl
theorem extract_rs (w : Word) : w.extractLsb' 21 5 = rsField w := rfl
theorem extract_rt (w : Word) : w.extractLsb' 16 5 = rtField w := rfl
theorem extract_funct (w : Word) : w.extractLsb' 0 6 = functField w := rfl

theorem decodeSpecial_unassigned_iff {w : Word} (hop : opcodeField w = 0x00#6) :
    decodeSpecial w = .unassigned ↔ ¬ assignedSelector w := by
  simp only [assignedSelector, extract_opcode, extract_funct, hop]
  clear hop
  unfold decodeSpecial
  split
  case h_38 =>
    simp [BitVec.toNat_eq] at *
    omega
  all_goals simp [*, ifZero_ne_unassigned]

theorem decodeCop0Operation_unassigned_iff {w : Word} (hop : opcodeField w = 0x10#6) (hbit : w.getLsbD 25 = true) :
    decodeCop0Operation w = .unassigned ↔ ¬ assignedSelector w := by
  simp only [assignedSelector, extract_opcode, extract_funct, hop, hbit]
  unfold decodeCop0Operation
  split
  case h_1 hfunct => simp [hfunct, ifZero_ne_unassigned]
  case h_2 hfunct => simpa [BitVec.toNat_eq] using hfunct

theorem decodeCop0Move_unassigned_iff {w : Word} (hop : opcodeField w = 0x10#6) (hbit : ¬ w.getLsbD 25 = true) :
    decodeCop0Move w = .unassigned ↔ ¬ assignedSelector w := by
  simp only [assignedSelector, extract_opcode, extract_rs, hop, hbit]
  unfold decodeCop0Move
  split
  case h_3 hmfc0 hmtc0 => simpa [BitVec.toNat_eq] using And.intro hmfc0 hmtc0
  all_goals simp [*, ifZero_ne_unassigned]

theorem decodeCop0_unassigned_iff {w : Word} (hop : opcodeField w = 0x10#6) :
    decodeCop0 w = .unassigned ↔ ¬ assignedSelector w := by
  unfold decodeCop0
  split
  case isTrue hbit => exact decodeCop0Operation_unassigned_iff hop hbit
  case isFalse hbit => exact decodeCop0Move_unassigned_iff hop hbit

theorem decodeCop1Branch_unassigned_iff {w : Word} (hop : opcodeField w = 0x11#6) (hfmt : rsField w = 0x08#5) :
    decodeCop1Branch w = .unassigned ↔ ¬ assignedSelector w := by
  simp only [assignedSelector, extract_opcode, extract_rs, extract_rt, hop, hfmt]
  unfold decodeCop1Branch
  split
  case h_3 hbc1f hbc1t => simpa [BitVec.toNat_eq] using And.intro hbc1f hbc1t
  all_goals simp [*]

theorem decodeCop1Single_unassigned_iff {w : Word} (hop : opcodeField w = 0x11#6) (hfmt : rsField w = 0x10#5) :
    decodeCop1Single w = .unassigned ↔ ¬ assignedSelector w := by
  have hlt := (functField w).isLt
  simp only [assignedSelector, extract_opcode, extract_rs, extract_funct, hop, hfmt]
  clear hop hfmt
  unfold decodeCop1Single
  split
  case h_34 =>
    simp [BitVec.toNat_eq] at *
    omega
  all_goals simp [*, ifZero_ne_unassigned]

theorem decodeCop1Double_unassigned_iff {w : Word} (hop : opcodeField w = 0x11#6) (hfmt : rsField w = 0x11#5) :
    decodeCop1Double w = .unassigned ↔ ¬ assignedSelector w := by
  have hlt := (functField w).isLt
  simp only [assignedSelector, extract_opcode, extract_rs, extract_funct, hop, hfmt]
  clear hop hfmt
  unfold decodeCop1Double
  split
  case h_34 =>
    simp [BitVec.toNat_eq] at *
    omega
  all_goals simp [*, ifZero_ne_unassigned]

theorem decodeCop1_unassigned_iff {w : Word} (hop : opcodeField w = 0x11#6) :
    decodeCop1 w = .unassigned ↔ ¬ assignedSelector w := by
  unfold decodeCop1
  split
  case h_1 hfmt => exact decodeCop1Branch_unassigned_iff hop hfmt
  case h_2 hfmt => exact decodeCop1Single_unassigned_iff hop hfmt
  case h_3 hfmt => exact decodeCop1Double_unassigned_iff hop hfmt
  case h_4 =>
    simp only [assignedSelector, extract_opcode, extract_rs, hop]
    simp_all [BitVec.toNat_eq]

theorem decode_unassigned_iff (w : Word) : decode w = .unassigned ↔ ¬ assignedSelector w := by
  have hlt := (opcodeField w).isLt
  unfold decode
  split
  case h_39 hop => exact decodeSpecial_unassigned_iff hop
  case h_40 hop => exact decodeCop0_unassigned_iff hop
  case h_41 hop => exact decodeCop1_unassigned_iff hop
  case h_42 =>
    simp only [assignedSelector, extract_opcode]
    simp [BitVec.toNat_eq] at *
    split_ifs
    omega
  all_goals simp [assignedSelector, extract_opcode, *, ifZero_ne_unassigned]

/-- A word is an instruction's, or unassigned, or has a non-zero must-be-zero field: the first two decide the third. -/
theorem decode_mustBeZero_iff (w : Word) :
    decode w = .mustBeZero ↔ assignedSelector w ∧ ∀ i, encode i ≠ w := by
  have hassigned : assignedSelector w ↔ decode w ≠ .unassigned := by rw [Ne, decode_unassigned_iff, not_not]
  simp only [hassigned, Ne, ← decode_eq_instr_iff]
  cases decode w <;> simp

/-! ### A step whose fetch gives a word that decodes to no instruction -/

theorem step_of_fetch_unassigned {s : State} {w : Word} (hint : s.beginStep.interruptPending = false)
    (hfetch : s.beginStep.fetch = .word w) (hdecode : decode w = .unassigned) :
    step s = if s.plat.blankIsRi then s.beginStep.raise .ri else .refused .unassignedWord := by
  rw [step_eq_fetchExecute hint, State.fetchExecute, hfetch]
  show s.beginStep.executeWord w = _
  rw [State.executeWord, hdecode, beginStep_plat]

theorem step_of_fetch_mustBeZero {s : State} {w : Word} (hint : s.beginStep.interruptPending = false)
    (hfetch : s.beginStep.fetch = .word w) (hdecode : decode w = .mustBeZero) :
    step s = .refused .mustBeZeroField := by
  rw [step_eq_fetchExecute hint, State.fetchExecute, hfetch]
  show s.beginStep.executeWord w = _
  rw [State.executeWord, hdecode]

/-! ### The statements -/

/-- Settles O3: the decoder's maps are blank exactly where `assignedSelector` fails, and a step looks at BLANK_IS_RI
for a blank word only. -/
theorem unassignedWords : Obligations.UnassignedWords := by
  unfold Obligations.UnassignedWords
  intro s w
  refine ⟨decode_unassigned_iff w, fun hblank hint hfetch => ?_⟩
  have hstep := step_of_fetch_unassigned hint hfetch ((decode_unassigned_iff w).2 hblank)
  refine ⟨fun hplat => by simpa [hplat] using hstep, fun hplat => ?_⟩
  have hraise : step s = s.beginStep.raise .ri := by simpa [hplat] using hstep
  exact ⟨_, hraise, enters_trapEntry s.beginStep .ri none⟩

/-- Settles O4: a word decodes to what it encodes, so an assigned word without an instruction is a must-be-zero word;
the free fields are operands of the encoder, which the decoder reads back at any value. -/
theorem mustBeZeroFields : Obligations.MustBeZeroFields := by
  unfold Obligations.MustBeZeroFields
  refine ⟨fun s w => ⟨decode_mustBeZero_iff w, fun hassigned hnone hint hfetch => ?_⟩, fun code => ?_,
    fun rs rt code => ?_, fun op rs imm => hasWord_encode (.cache op rs imm),
    fun hint rs imm => hasWord_encode (.pref hint rs imm)⟩
  · exact step_of_fetch_mustBeZero hint hfetch ((decode_mustBeZero_iff w).2 ⟨hassigned, hnone⟩)
  · exact ⟨hasWord_encode (.syscall code), hasWord_encode (.brk code)⟩
  · exact ⟨hasWord_encode (.tge rs rt code), hasWord_encode (.tgeu rs rt code), hasWord_encode (.tlt rs rt code),
      hasWord_encode (.tltu rs rt code), hasWord_encode (.teq rs rt code), hasWord_encode (.tne rs rt code)⟩

/-- Settles O6: the word 0 encodes sll 0, 0, 0, whose write to register 0 is discarded (R117). -/
theorem zeroWordChangesNothing : Obligations.ZeroWordChangesNothing := by
  unfold Obligations.ZeroWordChangesNothing
  refine ⟨decode_eq_instr_iff.2 rfl, fun s => ?_⟩
  have hexec : exec (.sll 0#5 0#5 0#5) s = retire s := rfl
  exact completes_retire hexec (changesNothing_advance s)

end Sys2Proof.Machine
end

section
/-! The integer arithmetic, logic, shift, compare and conditional-move instructions: what the operand forms and results
of 40_integer_alu.md are as numbers, signed overflow read off the sign bits (R167), and from these what each
instruction writes. -/

namespace Sys2Proof.Machine

/-! ### Operands and results as the rules write them -/

theorem boolWord_decide (p : Prop) [Decidable p] : boolWord (decide p) = if p then 1#32 else 0#32 := by
  simp [boolWord]

theorem zeroImm_eq_append (imm : Half) : zeroImm imm = 0#16 ++ imm :=
  BitVec.setWidth_eq_append (by decide)

theorem shiftAmount_eq_mod (v : Word) : shiftAmount v = v.toNat % 32 := by
  simp [shiftAmount, BitVec.extractLsb'_toNat]

/-! ### The three shifts as arithmetic (R155, R156, R159) -/

theorem shiftLeft_eq_ofNat_mul (v : Word) (n : Nat) : v <<< n = BitVec.ofNat 32 (v.toNat * 2 ^ n) := by
  apply BitVec.eq_of_toNat_eq
  rw [BitVec.toNat_shiftLeft, BitVec.toNat_ofNat, Nat.shiftLeft_eq]

theorem ushiftRight_eq_ofNat_div (v : Word) (n : Nat) : v >>> n = BitVec.ofNat 32 (v.toNat / 2 ^ n) := by
  rw [← Nat.shiftRight_eq_div_pow, ← BitVec.toNat_ushiftRight, BitVec.ofNat_toNat, BitVec.setWidth_eq]

theorem sshiftRight_eq_ofInt_div (v : Word) (n : Nat) :
    v.sshiftRight n = BitVec.ofInt 32 (v.toInt / 2 ^ n) := by
  have hfloor : (v.sshiftRight n).toInt = v.toInt / 2 ^ n := by
    rw [BitVec.toInt_sshiftRight, Int.shiftRight_eq_div_pow]
    norm_cast
  rw [← hfloor, BitVec.ofInt_toInt]

/-! ### Signed overflow (R167) -/

theorem overflows_iff (n : Int) : overflows n = true ↔ n < -2 ^ 31 ∨ 2 ^ 31 - 1 < n := by
  simp [overflows]

/-- The model's test of an exact sum is the library's overflow of a signed addition. -/
theorem overflows_add_eq_saddOverflow (a b : Word) : overflows (a.toInt + b.toInt) = a.saddOverflow b := by
  rw [Bool.eq_iff_iff, overflows_iff]
  simp only [BitVec.saddOverflow, Bool.or_eq_true, decide_eq_true_eq]
  omega

/-- The model's test of an exact difference is the library's overflow of a signed subtraction. -/
theorem overflows_sub_eq_ssubOverflow (a b : Word) : overflows (a.toInt - b.toInt) = a.ssubOverflow b := by
  rw [Bool.eq_iff_iff, overflows_iff]
  simp only [BitVec.ssubOverflow, Bool.or_eq_true, decide_eq_true_eq]
  omega

theorem overflows_add_iff_msb (a b : Word) :
    overflows (a.toInt + b.toInt) = true ↔ a.msb = b.msb ∧ (a + b).msb ≠ a.msb := by
  rw [overflows_add_eq_saddOverflow, BitVec.saddOverflow_eq]
  simp

theorem overflows_sub_iff_msb (a b : Word) :
    overflows (a.toInt - b.toInt) = true ↔ a.msb ≠ b.msb ∧ (a - b).msb ≠ a.msb := by
  rw [overflows_sub_eq_ssubOverflow, BitVec.ssubOverflow_eq]
  cases a.msb <;> cases b.msb <;> simp

theorem ofInt_toInt_add (a b : Word) : BitVec.ofInt 32 (a.toInt + b.toInt) = a + b := by
  rw [BitVec.ofInt_add, BitVec.ofInt_toInt, BitVec.ofInt_toInt]

theorem ofInt_toInt_sub (a b : Word) : BitVec.ofInt 32 (a.toInt - b.toInt) = a - b := by
  apply BitVec.eq_of_toInt_eq
  rw [BitVec.toInt_ofInt, BitVec.toInt_sub]

/-- Settles O34: the range test of a sum and of a difference is the test of the sign bits, and the model's two
operations make that range test; the exact result modulo 2^32 is the 32-bit one. -/
theorem overflowIsSeenInTheSigns : Obligations.OverflowIsSeenInTheSigns := by
  unfold Obligations.OverflowIsSeenInTheSigns
  intro a b
  refine ⟨?_, ?_, ?_, ?_⟩
  · rw [← overflows_iff, overflows_add_iff_msb]
  · rw [← overflows_iff, overflows_sub_iff_msb]
  · simp only [addSigned, overflows_add_iff_msb, ofInt_toInt_add]
  · simp only [subSigned, overflows_sub_iff_msb, ofInt_toInt_sub]

/-! ### How an instruction of this unit ends -/

/-- An instruction that retires with `w` in register `rd` writes any value that equals `w`. -/
theorem completes_writesX {i : Instr} {s : State} {rd : RegNum} {v w : Word}
    (hexec : exec i s = retire (s.setX rd w)) (hvalue : w = v) : completes i s (fun t => writesX s t rd v) :=
  completes_retire hexec (hvalue ▸ writesX_setX s rd w)

/-- The two ways an instruction with an exact result `n` ends: the range decides between the write and Ov (R141). -/
theorem completes_overflowing {i : Instr} {s : State} {rd : RegNum} {n : Int}
    (hexec : exec i s = overflowing rd (if overflows n then none else some (BitVec.ofInt 32 n)) s) :
    (-2 ^ 31 ≤ n → n ≤ 2 ^ 31 - 1 → completes i s (fun t => writesX s t rd (BitVec.ofInt 32 n))) ∧
    (n < -2 ^ 31 ∨ 2 ^ 31 - 1 < n → completes i s (fun t => enters s t 12#5 none)) := by
  refine ⟨fun hlow hhigh => ?_, fun hrange => ?_⟩
  · have hfits : ¬ overflows n = true := by
      rw [overflows_iff]
      omega
    rw [if_neg hfits] at hexec
    exact completes_writesX hexec rfl
  · rw [if_pos ((overflows_iff n).2 hrange)] at hexec
    exact completes_raise hexec

/-! ### The statements -/

/-- Settles O30: eight instructions retire with the rule's value in rd; movz and movn test rt first. -/
theorem registerOperations : Obligations.RegisterOperations := by
  unfold Obligations.RegisterOperations
  intro s rd rs rt
  refine ⟨⟨hasWord_encode (.addu rd rs rt), completes_writesX rfl rfl⟩,
    ⟨hasWord_encode (.subu rd rs rt), completes_writesX rfl rfl⟩,
    ⟨hasWord_encode (.and rd rs rt), completes_writesX rfl rfl⟩,
    ⟨hasWord_encode (.or rd rs rt), completes_writesX rfl rfl⟩,
    ⟨hasWord_encode (.xor rd rs rt), completes_writesX rfl rfl⟩,
    ⟨hasWord_encode (.nor rd rs rt), completes_writesX rfl rfl⟩,
    ⟨hasWord_encode (.slt rd rs rt), completes_writesX rfl (boolWord_decide _)⟩,
    ⟨hasWord_encode (.sltu rd rs rt), completes_writesX rfl (boolWord_decide _)⟩,
    ⟨hasWord_encode (.movz rd rs rt), fun hzero => ?_, fun hnonzero => ?_⟩,
    ⟨hasWord_encode (.movn rd rs rt), fun hnonzero => ?_, fun hzero => ?_⟩⟩
  · have hexec : exec (.movz rd rs rt) s = retire (s.setX rd (s.x rs)) := congrArg retire (if_pos hzero)
    exact completes_writesX hexec rfl
  · have hexec : exec (.movz rd rs rt) s = retire s := congrArg retire (if_neg hnonzero)
    exact completes_retire hexec (changesNothing_advance s)
  · have hexec : exec (.movn rd rs rt) s = retire (s.setX rd (s.x rs)) := congrArg retire (if_neg hnonzero)
    exact completes_writesX hexec rfl
  · have hexec : exec (.movn rd rs rt) s = retire s := congrArg retire (if_pos hzero)
    exact completes_retire hexec (changesNothing_advance s)

/-- Settles O31: each instruction retires with the rule's value in rt; the model's zero extension is sixteen zero bits
put before the immediate. -/
theorem immediateOperations : Obligations.ImmediateOperations := by
  unfold Obligations.ImmediateOperations
  intro s rt rs imm
  exact ⟨⟨hasWord_encode (.addiu rt rs imm), completes_writesX rfl rfl⟩,
    ⟨hasWord_encode (.andi rt rs imm), completes_writesX rfl (congrArg (s.x rs &&& ·) (zeroImm_eq_append imm))⟩,
    ⟨hasWord_encode (.ori rt rs imm), completes_writesX rfl (congrArg (s.x rs ||| ·) (zeroImm_eq_append imm))⟩,
    ⟨hasWord_encode (.xori rt rs imm), completes_writesX rfl (congrArg (s.x rs ^^^ ·) (zeroImm_eq_append imm))⟩,
    ⟨hasWord_encode (.lui rt imm), completes_writesX rfl rfl⟩,
    ⟨hasWord_encode (.slti rt rs imm), completes_writesX rfl (boolWord_decide _)⟩,
    ⟨hasWord_encode (.sltiu rt rs imm), completes_writesX rfl (boolWord_decide _)⟩⟩

/-- Settles O32: each shift retires with the shifted word, which is the rule's product or quotient; a register gives
its low five bits as the amount, its value modulo 32 (R162). -/
theorem shifts : Obligations.Shifts := by
  unfold Obligations.Shifts
  intro s rd rt rs shamt
  simp only [← shiftAmount_eq_mod]
  exact ⟨⟨hasWord_encode (.sll rd rt shamt), completes_writesX rfl (shiftLeft_eq_ofNat_mul ..)⟩,
    ⟨hasWord_encode (.srl rd rt shamt), completes_writesX rfl (ushiftRight_eq_ofNat_div ..)⟩,
    ⟨hasWord_encode (.sra rd rt shamt), completes_writesX rfl (sshiftRight_eq_ofInt_div ..)⟩,
    ⟨hasWord_encode (.sllv rd rt rs), completes_writesX rfl (shiftLeft_eq_ofNat_mul ..)⟩,
    ⟨hasWord_encode (.srlv rd rt rs), completes_writesX rfl (ushiftRight_eq_ofNat_div ..)⟩,
    ⟨hasWord_encode (.srav rd rt rs), completes_writesX rfl (sshiftRight_eq_ofInt_div ..)⟩⟩

/-- Settles O33: the three instructions are `overflowing` of an exact sum or difference. -/
theorem addSubWithOverflow : Obligations.AddSubWithOverflow := by
  unfold Obligations.AddSubWithOverflow
  intro s rd rs rt imm
  exact ⟨⟨hasWord_encode (.add rd rs rt), completes_overflowing rfl⟩,
    ⟨hasWord_encode (.addi rt rs imm), completes_overflowing rfl⟩,
    ⟨hasWord_encode (.sub rd rs rt), completes_overflowing rfl⟩⟩

end Sys2Proof.Machine
end

section
/-! The branches and jumps of 41_control_transfer.md, the two floating-point branches and eret: each branch and jump ends in
`State.branch` of a condition and a target, where in_ds alone decides between the delayed transfer (R26) and the refusal
(R181). jal and jalr write the link value before it; jalr and eret test in_ds first themselves (R189, R332). -/

namespace Sys2Proof.Machine

/-! ### A transfer of control, by in_ds -/

theorem branch_in_slot {s : State} (hslot : s.inDs = true) (taken : Bool) (target : Word) :
    s.branch taken target = .refused .transferInDelaySlot := if_pos hslot

theorem branch_outside_slot {s : State} (hslot : s.inDs = false) (taken : Bool) (target : Word) :
    s.branch taken target = .next (s.transfer taken target) := if_neg (Bool.eq_false_iff.1 hslot)

theorem refuses_branch {i : Instr} {s u : State} {taken : Bool} {target : Word}
    (hexec : exec i s = u.branch taken target) (hslot : u.inDs = true) : refuses i s .transferInDelaySlot :=
  hexec.trans (branch_in_slot hslot taken target)

theorem completes_branch {i : Instr} {s : State} {taken : Bool} {cond : Prop} {target : Word}
    (hexec : exec i s = s.branch taken target) (hcond : taken = true ↔ cond) (hslot : s.inDs = false) :
    completes i s (fun t => transfersTo s t cond target) :=
  ⟨_, hexec.trans (branch_outside_slot hslot taken target), propext hcond ▸ transfersTo_transfer s taken target⟩

/-- The link value is written before the transfer; the target is a value that the
instruction has read from the state before that write (R185, R189). -/
theorem completes_link {i : Instr} {s : State} {rd : RegNum} {v target : Word}
    (hexec : exec i s = (s.setX rd v).branch true target) (hslot : s.inDs = false) :
    completes i s (fun t => linksTo s t rd v target) :=
  ⟨_, hexec.trans (branch_outside_slot ((setX_inDs s rd v).trans hslot) true target), linksTo_transfer s rd v target⟩

/-- The two halves of what the rules say of a conditional branch, by in_ds. -/
theorem completes_or_refuses_branch {i : Instr} {s : State} {taken : Bool} {cond : Prop} {target : Word}
    (hexec : exec i s = s.branch taken target) (hcond : taken = true ↔ cond) :
    (s.inDs = false → completes i s (fun t => transfersTo s t cond target)) ∧
    (s.inDs = true → refuses i s .transferInDelaySlot) :=
  ⟨completes_branch hexec hcond, refuses_branch hexec⟩

/-! ### jalr and eret test in_ds before anything else -/

theorem linkAllowed_iff (rd rs : RegNum) : linkAllowed rd rs = true ↔ rd ≠ rs ∨ rd = 0#5 := by
  simp [linkAllowed]

theorem execJalr_in_slot {s : State} (hslot : s.inDs = true) (rd rs : RegNum) :
    execJalr rd rs s = .refused .transferInDelaySlot := if_pos hslot

theorem execJalr_outside_slot {s : State} (hslot : s.inDs = false) (rd rs : RegNum) :
    execJalr rd rs s =
      if linkAllowed rd rs then (s.setX rd s.linkValue).branch true (s.x rs) else .refused .jalrLinkIsTarget :=
  if_neg (Bool.eq_false_iff.1 hslot)

theorem execEret_in_slot {s : State} (hslot : s.inDs = true) : execEret s = .refused .transferInDelaySlot :=
  if_pos hslot

/-! ### The statements -/

/-- Settles O13: nine instructions are a `State.branch` of some condition and target, and jalr and eret test in_ds
themselves, before the registers of the one and the mode of the other are looked at. -/
theorem transferInDelaySlotRefused : Obligations.TransferInDelaySlotRefused := by
  unfold Obligations.TransferInDelaySlotRefused
  intro s rd rs rt imm address hslot
  have hjal : exec (.jal address) s = (s.setX 31#5 s.linkValue).branch true (s.jumpTarget address) := rfl
  exact ⟨refuses_branch rfl hslot, refuses_branch rfl hslot, refuses_branch rfl hslot, refuses_branch rfl hslot,
    refuses_branch rfl hslot, refuses_branch hjal ((setX_inDs ..).trans hslot), refuses_branch rfl hslot,
    execJalr_in_slot hslot rd rs, refuses_branch rfl hslot, refuses_branch rfl hslot, execEret_in_slot hslot⟩

/-- Settles O35: each of the six is the `State.branch` of its rule's condition to the target of R180. -/
theorem conditionalBranches : Obligations.ConditionalBranches := by
  unfold Obligations.ConditionalBranches
  intro s rs rt imm
  exact ⟨⟨hasWord_encode (.beq rs rt imm), completes_or_refuses_branch rfl decide_eq_true_iff⟩,
    ⟨hasWord_encode (.bne rs rt imm), completes_or_refuses_branch rfl decide_eq_true_iff⟩,
    ⟨hasWord_encode (.blez rs imm), completes_or_refuses_branch rfl decide_eq_true_iff⟩,
    ⟨hasWord_encode (.bgtz rs imm), completes_or_refuses_branch rfl decide_eq_true_iff⟩,
    ⟨hasWord_encode (.bc1t imm), completes_or_refuses_branch rfl Iff.rfl⟩,
    ⟨hasWord_encode (.bc1f imm), completes_or_refuses_branch rfl (Bool.not_eq_true' s.fpcond).to_iff⟩⟩

/-- Settles O36: the four jumps are always taken; jalr gets to its transfer exactly when `linkAllowed` holds of its
registers, and its target is the value rs held before the link was written. -/
theorem jumpsAndLinks : Obligations.JumpsAndLinks := by
  unfold Obligations.JumpsAndLinks
  intro s rd rs address hslot
  have htaken : true = true ↔ True := eq_self_iff_true true
  have hjalr : exec (.jalr rd rs) s = _ := execJalr_outside_slot hslot rd rs
  refine ⟨⟨hasWord_encode (.j address), completes_branch rfl htaken hslot⟩,
    ⟨hasWord_encode (.jal address), completes_link rfl hslot⟩,
    ⟨hasWord_encode (.jr rs), completes_branch rfl htaken hslot⟩,
    ⟨hasWord_encode (.jalr rd rs), fun hallowed => ?_, fun hsame hnonzero => ?_⟩⟩
  · rw [if_pos ((linkAllowed_iff rd rs).2 hallowed)] at hjalr
    exact completes_link hjalr hslot
  · have hforbidden : ¬ linkAllowed rd rs = true :=
      mt (linkAllowed_iff rd rs).1 (not_or.2 ⟨not_not.2 hsame, hnonzero⟩)
    rw [if_neg hforbidden] at hjalr
    exact hjalr

end Sys2Proof.Machine
end

section
/-! The loads and stores of 42_load_store.md and 44_floating_point.md: each is a data access (R68) whose run writes one
register, or stores a list of bytes. Here is what that run leaves in the terms of the rules: the merged registers of lwl
and lwr bit by bit, the bytes of swl and swr, the outcomes of sc, and the word at any address from the pairs (R215). -/

namespace Sys2Proof.Machine

/-! ### An instruction that makes a data access, by its checks -/

/-- A failed address check takes the address error, whatever the access would have done (R66, R74). -/
theorem completes_addressError {i : Instr} {s : State} {kind : AccessKind} {align : Nat} {a first : Word} {n : Nat}
    {run : Result} (hexec : exec i s = s.access kind align a first n run)
    (hfail : a.toNat % align ≠ 0 ∨ aboveLimit s a) :
    completes i s (fun t => enters s t (addressError kind).number (some a)) :=
  ⟨_, hexec.trans (access_addressError hfail), enters_trapEntry ..⟩

/-- An access that passes the address checks and is not served takes DBE, whatever it would have done (R75). -/
theorem completes_busError {i : Instr} {s : State} {kind : AccessKind} {align : Nat} {a first : Word} {n : Nat}
    {run : Result} (hexec : exec i s = s.access kind align a first n run) (haligned : a.toNat % align = 0)
    (hlimit : ¬ aboveLimit s a) (hserved : ¬ served s kind first n) :
    completes i s (fun t => enters s t 7#5 none) :=
  ⟨_, hexec.trans (access_busError haligned hlimit hserved), enters_trapEntry s .dbe none⟩

/-- The checks read Status and the platform alone. -/
theorem accessOk_of_same_status_plat {s t : State} {kind : AccessKind} {align : Nat} {a first : Word} {n : Nat}
    (hstatus : t.status = s.status) (hplat : t.plat = s.plat) (hok : accessOk s kind align a first n) :
    accessOk t kind align a first n := by
  simpa only [accessOk, aboveLimit, inUserMode, served, hstatus, hplat] using hok

/-- What a data access does when it is performed may be said in weaker terms. -/
theorem accesses_mono {i : Instr} {s : State} {kind : AccessKind} {align : Nat} {a first : Word} {n : Nat}
    {p q : State → Prop} (himp : ∀ t, p t → q t) (h : accesses i s kind align a first n p) :
    accesses i s kind align a first n q := by
  obtain ⟨hok, haddress, hbus⟩ := h
  refine ⟨fun hchecks => ?_, haddress, hbus⟩
  obtain ⟨t, hexec, ht⟩ := hok hchecks
  exact ⟨t, hexec, himp t ht⟩

/-- An instruction that stores one list of bytes, once its checks have passed. -/
theorem accesses_storeBytes {i : Instr} {s : State} {align : Nat} {a first b : Word} {n : Nat} {bytes : List Byte}
    (hexec : exec i s = s.access .store align a first n (retire (s.storeBytes b bytes)))
    (hlen : bytes.length ≤ 2 ^ 32) :
    accesses i s .store align a first n (fun t => writesBytes s t b bytes) :=
  accesses_of hexec (writesBytes_storeBytes s b bytes hlen)

/-! ### The bytes of a word in memory -/

theorem length_bytesOf (v : Word) : (bytesOf v).length = 4 := rfl

theorem bytesOf_eq_map_range (v : Word) : bytesOf v = (List.range 4).map (fun i => v.extractLsb' (24 - 8 * i) 8) := rfl

/-- The first `n` bytes of a word are its `n` most significant ones. -/
theorem take_bytesOf (v : Word) {n : Nat} (hn : n ≤ 4) :
    (bytesOf v).take n = (List.range n).map (fun i => v.extractLsb' (24 - 8 * i) 8) := by
  rw [bytesOf_eq_map_range, ← List.map_take, List.take_range, Nat.min_eq_left hn]

/-- The last `b + 1` bytes of a word are its least significant ones, the least of them last. -/
theorem drop_bytesOf (v : Word) {b : Nat} (hb : b ≤ 3) :
    (bytesOf v).drop (3 - b) = (List.range (b + 1)).map (fun i => v.extractLsb' (8 * (b - i)) 8) := by
  refine List.ext_getElem ?_ fun i hi _ => ?_
  · simp only [List.length_drop, length_bytesOf, List.length_map, List.length_range]
    omega
  · have hplace : 24 - 8 * (3 - b + i) = 8 * (b - i) := by
      simp only [List.length_drop, length_bytesOf] at hi
      omega
    simp only [bytesOf_eq_map_range, List.getElem_drop, List.getElem_map, List.getElem_range, hplace]

/-- The bytes of the low halfword of a word, taken from the word (R207). -/
theorem bytes_of_low_half (v : Word) :
    [(v.extractLsb' 0 16).extractLsb' 8 8, (v.extractLsb' 0 16).extractLsb' 0 8] =
      [v.extractLsb' 8 8, v.extractLsb' 0 8] := by
  rw [BitVec.extractLsb'_extractLsb'_of_le (by decide), BitVec.extractLsb'_extractLsb'_of_le (by decide)]

/-- A bit of the word at an address, in the byte that holds it (R62, R64). -/
theorem wordAt_getLsbD (s : State) (a : Word) {k : Nat} (hk : k < 32) :
    (wordAt s a).getLsbD k = (s.byte (a + BitVec.ofNat 32 (3 - k / 8))).getLsbD (k % 8) := by
  simp only [wordAt, BitVec.getLsbD_append]
  interval_cases k <;> simp

/-! ### The place of an address in its aligned word -/

theorem byteInWord_eq_mod (a : Word) : byteInWord a = a.toNat % 4 := by
  simp [byteInWord, BitVec.extractLsb'_toNat]

theorem byteInWord_lt (a : Word) : byteInWord a < 4 := (a.extractLsb' 0 2).isLt

theorem alignedWord_toNat (a : Word) : (alignedWord a).toNat = a.toNat - a.toNat % 4 := by
  have hrange := a.isLt
  simp only [alignedWord, BitVec.toNat_append, BitVec.extractLsb'_toNat, Nat.shiftRight_eq_div_pow,
    Nat.shiftLeft_eq, BitVec.toNat_ofNat, Nat.zero_mod, Nat.or_zero]
  omega

theorem alignedWord_add_byteInWord (a : Word) : alignedWord a + BitVec.ofNat 32 (byteInWord a) = a := by
  have haligned := alignedWord_toNat a
  rw [byteInWord_eq_mod]
  bv_omega

/-- Of an address and the one three bytes on, the second lies at most one place before the first in its word. -/
theorem byteInWord_le_add_three (a : Word) : byteInWord a ≤ byteInWord (a + 3#32) + 1 := by
  rw [byteInWord_eq_mod, byteInWord_eq_mod, BitVec.toNat_add]
  change a.toNat % 4 ≤ (a.toNat + 3) % 2 ^ 32 % 4 + 1
  omega

/-- The aligned word of the address three bytes on begins as many bytes on as `swr` there leaves out. -/
theorem alignedWord_add_three (a : Word) :
    alignedWord (a + 3#32) = a + BitVec.ofNat 32 (3 - byteInWord (a + 3#32)) := by
  have hplace := alignedWord_add_byteInWord (a + 3#32)
  have hlt := byteInWord_lt (a + 3#32)
  bv_omega

/-! ### lwl and lwr, bit by bit -/

theorem mergeLeft_getLsbD (w old : Word) (b : Nat) {k : Nat} (hk : k < 32) :
    (mergeLeft w old b).getLsbD k = if k < 8 * b then old.getLsbD k else w.getLsbD (k - 8 * b) := by
  simp only [mergeLeft, BitVec.getLsbD_or, BitVec.getLsbD_shiftLeft, BitVec.getLsbD_and, BitVec.getLsbD_ofNat,
    Nat.testBit_two_pow_sub_one, hk]
  by_cases hlow : k < 8 * b <;> simp [hlow]

theorem mergeRight_getLsbD (w old : Word) (b : Nat) {k : Nat} (hk : k < 32) :
    (mergeRight w old b).getLsbD k = if 8 * (b + 1) ≤ k then old.getLsbD k else w.getLsbD (k + 8 * (3 - b)) := by
  simp only [mergeRight, BitVec.getLsbD_or, BitVec.getLsbD_ushiftRight, BitVec.getLsbD_and, BitVec.getLsbD_not,
    BitVec.getLsbD_ofNat, Nat.testBit_two_pow_sub_one, hk]
  by_cases hhigh : 8 * (b + 1) ≤ k
  · have hnot : ¬ k < 8 * (b + 1) := by omega
    have hout : w.getLsbD (8 * (3 - b) + k) = false := BitVec.getLsbD_of_ge _ _ (by omega)
    simp [hhigh, hnot, hout]
  · have hlow : k < 8 * (b + 1) := by omega
    simp [hhigh, hlow, Nat.add_comm]

/-- The bits that lwl loads are those of the word at its own address. -/
theorem mergeLeft_wordAt_getLsbD (s : State) (a old : Word) {k : Nat} (hk : k < 32) :
    (mergeLeft (wordAt s (alignedWord a)) old (byteInWord a)).getLsbD k =
      if k < 8 * byteInWord a then old.getLsbD k else (wordAt s a).getLsbD k := by
  rw [mergeLeft_getLsbD _ _ _ hk]
  refine ite_congr rfl (fun _ => rfl) fun hloaded => ?_
  have hbyte : alignedWord a + BitVec.ofNat 32 (3 - (k - 8 * byteInWord a) / 8) = a + BitVec.ofNat 32 (3 - k / 8) := by
    have hplace := alignedWord_add_byteInWord a
    have hlt := byteInWord_lt a
    have hdiv : 3 - (k - 8 * byteInWord a) / 8 = byteInWord a + (3 - k / 8) := by omega
    rw [hdiv, BitVec.ofNat_add, ← BitVec.add_assoc, hplace]
  have hbit : (k - 8 * byteInWord a) % 8 = k % 8 := by omega
  rw [wordAt_getLsbD s _ (by omega), wordAt_getLsbD s _ hk, hbyte, hbit]

/-- The bits that lwr loads are those of the word that ends at its own address. -/
theorem mergeRight_wordAt_getLsbD (s : State) (a old : Word) {k : Nat} (hk : k < 32) :
    (mergeRight (wordAt s (alignedWord (a + 3#32))) old (byteInWord (a + 3#32))).getLsbD k =
      if 8 * (byteInWord (a + 3#32) + 1) ≤ k then old.getLsbD k else (wordAt s a).getLsbD k := by
  rw [mergeRight_getLsbD _ _ _ hk]
  refine ite_congr rfl (fun _ => rfl) fun hloaded => ?_
  have hlt := byteInWord_lt (a + 3#32)
  have hbyte : alignedWord (a + 3#32) + BitVec.ofNat 32 (3 - (k + 8 * (3 - byteInWord (a + 3#32))) / 8) =
      a + BitVec.ofNat 32 (3 - k / 8) := by
    have hdiv : 3 - k / 8 =
        3 - byteInWord (a + 3#32) + (3 - (k + 8 * (3 - byteInWord (a + 3#32))) / 8) := by omega
    rw [hdiv, BitVec.ofNat_add, ← BitVec.add_assoc, ← alignedWord_add_three]
  have hbit : (k + 8 * (3 - byteInWord (a + 3#32))) % 8 = k % 8 := by omega
  rw [wordAt_getLsbD s _ (by omega), wordAt_getLsbD s _ hk, hbyte, hbit]

/-- `lwl` as the model runs it: the aligned word merged into the register. -/
theorem accesses_lwl {s : State} {rt rs : RegNum} {imm : Half} {a : Word} (haddr : s.effectiveAddress rs imm = a) :
    accesses (.lwl rt rs imm) s .load 1 a a (4 - byteInWord a)
      (fun t => writesX s t rt (mergeLeft (wordAt s (alignedWord a)) (s.x rt) (byteInWord a))) := by
  subst haddr
  exact accesses_of rfl (writesX_setX ..)

/-- `lwr` as the model runs it: the aligned word merged into the register. -/
theorem accesses_lwr {s : State} {rt rs : RegNum} {imm : Half} {a : Word} (haddr : s.effectiveAddress rs imm = a) :
    accesses (.lwr rt rs imm) s .load 1 a (alignedWord a) (byteInWord a + 1)
      (fun t => writesX s t rt (mergeRight (wordAt s (alignedWord a)) (s.x rt) (byteInWord a))) := by
  subst haddr
  exact accesses_of rfl (writesX_setX ..)

/-! ### swl and swr -/

theorem length_le_of_sublist_bytesOf {l : List Byte} {v : Word} (h : l.Sublist (bytesOf v)) : l.length ≤ 2 ^ 32 :=
  h.length_le.trans (by rw [length_bytesOf]; decide)

/-- `swl` as the model runs it: a first part of the register's bytes, stored from the address on. -/
theorem accesses_swl {s : State} {rt rs : RegNum} {imm : Half} {a : Word} (haddr : s.effectiveAddress rs imm = a) :
    accesses (.swl rt rs imm) s .store 1 a a (4 - byteInWord a)
      (fun t => writesBytes s t a ((bytesOf (s.x rt)).take (4 - byteInWord a))) := by
  subst haddr
  exact accesses_storeBytes rfl (length_le_of_sublist_bytesOf (List.take_sublist ..))

/-- `swr` as the model runs it: a last part of the register's bytes, stored from the aligned word's start on. -/
theorem accesses_swr {s : State} {rt rs : RegNum} {imm : Half} {a : Word} (haddr : s.effectiveAddress rs imm = a) :
    accesses (.swr rt rs imm) s .store 1 a (alignedWord a) (byteInWord a + 1)
      (fun t => writesBytes s t (alignedWord a) ((bytesOf (s.x rt)).drop (3 - byteInWord a))) := by
  subst haddr
  exact accesses_storeBytes rfl (length_le_of_sublist_bytesOf (List.drop_sublist ..))

/-! ### Two stores that overlap -/

theorem add_ofNat_add_ofNat (a : Word) (j k : Nat) :
    a + BitVec.ofNat 32 j + BitVec.ofNat 32 k = a + BitVec.ofNat 32 (j + k) := by
  rw [BitVec.ofNat_add, BitVec.add_assoc]

theorem add_ofNat_ne {a : Word} {j k : Nat} (hj : j < 2 ^ 32) (hk : k < 2 ^ 32) (hne : j ≠ k) :
    a + BitVec.ofNat 32 j ≠ a + BitVec.ofNat 32 k := by
  intro heq
  have hnat := congrArg BitVec.toNat (add_left_cancel heq)
  rw [BitVec.toNat_ofNat, BitVec.toNat_ofNat, Nat.mod_eq_of_lt hj, Nat.mod_eq_of_lt hk] at hnat
  exact hne hnat

/-- A first part of a list of bytes and then a last part that begins no later than the first ends, each stored in its
place, are the list stored whole. -/
theorem bytesBecome_of_take_of_drop {s t u : State} {a : Word} {bytes : List Byte} {i j : Nat} (hij : j ≤ i)
    (hi : i ≤ bytes.length) (hlen : bytes.length ≤ 2 ^ 32) (htake : bytesBecome s t a (bytes.take i))
    (hdrop : bytesBecome t u (a + BitVec.ofNat 32 j) (bytes.drop j)) : bytesBecome s u a bytes := by
  obtain ⟨hfirst, hothers, hstored⟩ := htake
  obtain ⟨hlast, hothers', hstored'⟩ := hdrop
  simp only [List.length_take, List.getElem_take, Nat.min_eq_left hi] at hfirst hothers hstored
  simp only [List.length_drop, List.getElem_drop, add_ofNat_add_ofNat] at hlast hothers' hstored'
  refine ⟨fun k hk => ?_, fun b hb => ?_, fun c => ?_⟩
  · by_cases hjk : j ≤ k
    · have hbyte := hlast (k - j) (by omega)
      simpa only [Nat.add_sub_cancel' hjk] using hbyte
    · rw [hothers' _ fun m hm => add_ofNat_ne (by omega) (by omega) (by omega), hfirst k (by omega)]
  · rw [hothers' b fun m hm => hb (j + m) (by omega), hothers b fun m hm => hb m (by omega)]
  · rw [hstored', hstored, or_assoc]
    refine or_congr_right ⟨?_, fun ⟨k, hk, hc⟩ => ?_⟩
    · rintro (⟨k, hk, hc⟩ | ⟨k, hk, hc⟩)
      · exact ⟨k, by omega, hc⟩
      · exact ⟨j + k, by omega, hc⟩
    · by_cases hki : k < i
      · exact .inl ⟨k, hki, hc⟩
      · exact .inr ⟨k - j, by omega, by rwa [Nat.add_sub_cancel' (by omega)]⟩

/-! ### sc, once its checks have passed -/

theorem storeConditional_unlinked {s : State} (hclear : s.llBit = false) (rt : RegNum) (a : Word) :
    s.storeConditional rt a = retire ((s.setX rt 0#32).clearLink) := by
  simp [State.storeConditional, hclear]

theorem storeConditional_otherAddress {s : State} {a : Word} (hset : s.llBit = true) (hother : s.llAddr ≠ a)
    (rt : RegNum) : s.storeConditional rt a = .refused .scOtherAddress := by
  simp [State.storeConditional, hset, hother]

/-- With the link set at its address, the draws alone decide (R81, R82). -/
theorem storeConditional_linked {s : State} {a : Word} (hset : s.llBit = true) (hlink : s.llAddr = a) (rt : RegNum) :
    s.storeConditional rt a =
      if s.scDrawnFailure then retire ((s.setX rt 0#32).clearLink)
      else retire (((s.write32 a (s.x rt)).setX rt 1#32).clearLink) := by
  cases hdraw : s.scDrawnFailure <;> simp [State.storeConditional, hset, hlink, hdraw]

/-- Without a reason to fail there is no drawn failure, whatever is drawn. -/
theorem scDrawnFailure_eq_false {s : State} (hplat : s.plat.scMayFail = false) (htouched : s.llTouched = false) :
    s.scDrawnFailure = false := by
  simp [State.scDrawnFailure, hplat, htouched]

theorem storesNothing_clearLink (s : State) (rt : RegNum) :
    storesNothing s ((s.setX rt 0#32).clearLink).advance rt :=
  ⟨fun n => x_setX s rt n 0#32, rfl, fun _ => rfl⟩

theorem x_storeBytes (s : State) (a : Word) (bytes : List Byte) (n : RegNum) : (s.storeBytes a bytes).x n = s.x n := by
  rw [storeBytes_frame]
  rfl

theorem storesConditionally_write32 (s : State) (rt : RegNum) (a v : Word) :
    storesConditionally s (((s.write32 a v).setX rt 1#32).clearLink).advance rt a (bytesOf v) := by
  refine ⟨bytesBecome_storeBytes s a (bytesOf v) (by decide : 4 ≤ 2 ^ 32), fun n => ?_, ?_⟩
  · rw [← x_storeBytes s a (bytesOf v) n]
    exact x_setX (s.storeBytes a (bytesOf v)) rt n 1#32
  · conv_lhs => rw [State.write32, storeBytes_frame]
    rfl

/-! ### The word at any address (R215) -/

theorem effectiveAddress_zero (s : State) (rs : RegNum) : s.effectiveAddress rs 0#16 = s.x rs :=
  BitVec.add_zero (s.x rs)

theorem effectiveAddress_three (s : State) (rs : RegNum) : s.effectiveAddress rs 3#16 = s.x rs + 3#32 := rfl

/-- The lwl part and the lwr part of the word cover it, so whichever is loaded last completes it. -/
theorem mergeRight_mergeLeft_eq_wordAt (s : State) (a old : Word) :
    mergeRight (wordAt s (alignedWord (a + 3#32))) (mergeLeft (wordAt s (alignedWord a)) old (byteInWord a))
      (byteInWord (a + 3#32)) = wordAt s a := by
  have hcover := byteInWord_le_add_three a
  refine BitVec.eq_of_getLsbD_eq fun k hk => ?_
  rw [mergeRight_wordAt_getLsbD _ _ _ hk, mergeLeft_wordAt_getLsbD _ _ _ hk]
  split_ifs
  · omega
  · rfl
  · rfl

theorem mergeLeft_mergeRight_eq_wordAt (s : State) (a old : Word) :
    mergeLeft (wordAt s (alignedWord a)) (mergeRight (wordAt s (alignedWord (a + 3#32))) old (byteInWord (a + 3#32)))
      (byteInWord a) = wordAt s a := by
  have hcover := byteInWord_le_add_three a
  refine BitVec.eq_of_getLsbD_eq fun k hk => ?_
  rw [mergeLeft_wordAt_getLsbD _ _ _ hk, mergeRight_wordAt_getLsbD _ _ _ hk]
  split_ifs
  · omega
  · rfl
  · rfl

theorem wordAt_of_sameBytes {s t : State} (h : sameBytes s t) (a : Word) : wordAt t a = wordAt s a := by
  simp only [wordAt, h _]

/-- What an instruction after the writing of a register finds: the other registers, the checks and memory as they were.
-/
theorem writesX_x_other {s t : State} {rd n : RegNum} {v : Word} (h : writesX s t rd v) (hne : n ≠ rd) :
    t.x n = s.x n := by
  obtain ⟨hx, -, -⟩ := h
  rw [hx, if_neg fun hn => hne hn.1]

theorem writesX_x_self {s t : State} {rd : RegNum} {v : Word} (h : writesX s t rd v) (hrd : rd ≠ 0#5) : t.x rd = v := by
  obtain ⟨hx, -, -⟩ := h
  rw [hx, if_pos ⟨rfl, hrd⟩]

theorem writesX_accessOk {s t : State} {rd : RegNum} {v : Word} {kind : AccessKind} {align : Nat} {a first : Word}
    {n : Nat} (h : writesX s t rd v) (hok : accessOk s kind align a first n) : accessOk t kind align a first n := by
  obtain ⟨-, hframe, -⟩ := h
  exact accessOk_of_same_status_plat (congrArg State.status hframe) (congrArg State.plat hframe) hok

theorem writesX_wordAt {s t : State} {rd : RegNum} {v : Word} (h : writesX s t rd v) (a : Word) :
    wordAt t a = wordAt s a := by
  obtain ⟨-, -, hbytes⟩ := h
  exact wordAt_of_sameBytes hbytes a

/-- What an instruction after a store finds: the registers and the checks as they were. -/
theorem writesBytes_x {s t : State} {a : Word} {bytes : List Byte} (h : writesBytes s t a bytes) (n : RegNum) :
    t.x n = s.x n := by
  obtain ⟨-, -, hframe⟩ := h
  rw [hframe]
  rfl

theorem writesBytes_accessOk {s t : State} {b : Word} {bytes : List Byte} {kind : AccessKind} {align : Nat}
    {a first : Word} {n : Nat} (h : writesBytes s t b bytes) (hok : accessOk s kind align a first n) :
    accessOk t kind align a first n := by
  obtain ⟨-, -, hframe⟩ := h
  exact accessOk_of_same_status_plat (congrArg State.status hframe) (congrArg State.plat hframe) hok

/-- lwl, then lwr: lwr keeps in rt exactly the bytes that it does not load, all of which lwl has loaded. -/
theorem lwl_lwr_loads_word {s : State} {rt rs : RegNum} (hrt : rt ≠ 0#5) (hne : rs ≠ rt)
    (hleft : accessOk s .load 1 (s.x rs) (s.x rs) (4 - byteInWord (s.x rs)))
    (hright : accessOk s .load 1 (s.x rs + 3#32) (alignedWord (s.x rs + 3#32)) (byteInWord (s.x rs + 3#32) + 1)) :
    ∃ t u, exec (.lwl rt rs 0#16) s = .next t ∧ exec (.lwr rt rs 3#16) t = .next u ∧ u.x rt = wordAt s (s.x rs) := by
  obtain ⟨t, hlwl, ht⟩ := (accesses_lwl (effectiveAddress_zero s rs)).1 hleft
  have haddr : t.effectiveAddress rs 3#16 = s.x rs + 3#32 := by
    rw [effectiveAddress_three, writesX_x_other ht hne]
  obtain ⟨u, hlwr, hu⟩ := (accesses_lwr haddr).1 (writesX_accessOk ht hright)
  refine ⟨t, u, hlwl, hlwr, ?_⟩
  rw [writesX_x_self hu hrt, writesX_x_self ht hrt, writesX_wordAt ht, mergeRight_mergeLeft_eq_wordAt]

/-- lwr, then lwl: lwl keeps in rt exactly the bytes that it does not load, all of which lwr has loaded. -/
theorem lwr_lwl_loads_word {s : State} {rt rs : RegNum} (hrt : rt ≠ 0#5) (hne : rs ≠ rt)
    (hleft : accessOk s .load 1 (s.x rs) (s.x rs) (4 - byteInWord (s.x rs)))
    (hright : accessOk s .load 1 (s.x rs + 3#32) (alignedWord (s.x rs + 3#32)) (byteInWord (s.x rs + 3#32) + 1)) :
    ∃ t u, exec (.lwr rt rs 3#16) s = .next t ∧ exec (.lwl rt rs 0#16) t = .next u ∧ u.x rt = wordAt s (s.x rs) := by
  obtain ⟨t, hlwr, ht⟩ := (accesses_lwr (effectiveAddress_three s rs)).1 hright
  have haddr : t.effectiveAddress rs 0#16 = s.x rs := by
    rw [effectiveAddress_zero, writesX_x_other ht hne]
  obtain ⟨u, hlwl, hu⟩ := (accesses_lwl haddr).1 (writesX_accessOk ht hleft)
  refine ⟨t, u, hlwr, hlwl, ?_⟩
  rw [writesX_x_self hu hrt, writesX_x_self ht hrt, writesX_wordAt ht, mergeLeft_mergeRight_eq_wordAt]

/-- swl, then swr: the bytes of swr begin no later than those of swl end. -/
theorem swl_swr_stores_word {s : State} {rt rs : RegNum}
    (hleft : accessOk s .store 1 (s.x rs) (s.x rs) (4 - byteInWord (s.x rs)))
    (hright : accessOk s .store 1 (s.x rs + 3#32) (alignedWord (s.x rs + 3#32)) (byteInWord (s.x rs + 3#32) + 1)) :
    ∃ t u, exec (.swl rt rs 0#16) s = .next t ∧ exec (.swr rt rs 3#16) t = .next u ∧
      bytesBecome s u (s.x rs) (bytesOf (s.x rt)) := by
  obtain ⟨t, hswl, ht⟩ := (accesses_swl (effectiveAddress_zero s rs)).1 hleft
  have haddr : t.effectiveAddress rs 3#16 = s.x rs + 3#32 := by
    rw [effectiveAddress_three, writesBytes_x ht]
  obtain ⟨u, hswr, hu⟩ := (accesses_swr haddr).1 (writesBytes_accessOk ht hright)
  refine ⟨t, u, hswl, hswr, ?_⟩
  have hregister : t.x rt = s.x rt := writesBytes_x ht rt
  obtain ⟨htake, -, -⟩ := ht
  obtain ⟨hdrop, -, -⟩ := hu
  rw [hregister, alignedWord_add_three] at hdrop
  have hcover := byteInWord_le_add_three (s.x rs)
  have hpart : 4 - byteInWord (s.x rs) ≤ (bytesOf (s.x rt)).length := Nat.sub_le ..
  exact bytesBecome_of_take_of_drop (by omega) hpart (by decide : 4 ≤ 2 ^ 32) htake hdrop

/-! ### The statements -/

/-- Settles O37: each of the four is an access whose run writes rt; the model's operands and values are the rule's. -/
theorem byteAndHalfwordLoads : Obligations.ByteAndHalfwordLoads := by
  unfold Obligations.ByteAndHalfwordLoads
  rintro s rt rs imm a rfl
  exact ⟨⟨hasWord_encode (.lbu rt rs imm), accesses_of rfl (writesX_setX ..)⟩,
    ⟨hasWord_encode (.lb rt rs imm), accesses_of rfl (writesX_setX ..)⟩,
    ⟨hasWord_encode (.lhu rt rs imm), accesses_of rfl (writesX_setX ..)⟩,
    ⟨hasWord_encode (.lh rt rs imm), accesses_of rfl (writesX_setX ..)⟩⟩

/-- Settles O38: ldc1 tests its register first, and then all four are an access whose run writes what was read. -/
theorem wordAndDoubleLoads : Obligations.WordAndDoubleLoads := by
  unfold Obligations.WordAndDoubleLoads
  rintro s rt ft rs imm a rfl
  refine ⟨⟨hasWord_encode (.lw rt rs imm), accesses_of rfl (writesX_setX ..)⟩,
    ⟨hasWord_encode (.ll rt rs imm), accesses_of rfl (linksWord_setLink ..)⟩,
    ⟨hasWord_encode (.lwc1 ft rs imm), accesses_of rfl (writesF_setF ..)⟩,
    ⟨hasWord_encode (.ldc1 ft rs imm), fun hodd => refuses_of_odd_double rfl ⟨ft, List.mem_singleton_self ft, hodd⟩,
      fun heven => ?_⟩⟩
  have hexec : exec (.ldc1 ft rs imm) s = _ := withDoubles_even (by simpa [evenReg_iff] using heven)
  exact accesses_of hexec (writesDouble_setFd64 ..)

/-- Settles O39: the merged words, bit by bit. -/
theorem partialWordLoads : Obligations.PartialWordLoads := by
  unfold Obligations.PartialWordLoads
  rintro s rt rs imm a first b ha rfl rfl
  rw [← alignedWord_eq, ← byteInWord_eq]
  exact ⟨⟨hasWord_encode (.lwl rt rs imm),
      accesses_mono (fun t ht => ⟨_, fun k hk => mergeLeft_getLsbD _ _ _ hk, ht⟩) (accesses_lwl ha.symm)⟩,
    ⟨hasWord_encode (.lwr rt rs imm),
      accesses_mono (fun t ht => ⟨_, fun k hk => mergeRight_getLsbD _ _ _ hk, ht⟩) (accesses_lwr ha.symm)⟩⟩

/-- Settles O40: each is an access whose run stores one list of bytes; the two words of sdc1 are one list of eight. -/
theorem stores : Obligations.Stores := by
  unfold Obligations.Stores
  rintro s rt ft rs imm a rfl
  refine ⟨⟨hasWord_encode (.sb rt rs imm), accesses_storeBytes rfl (by decide : 1 ≤ 2 ^ 32)⟩,
    ⟨hasWord_encode (.sh rt rs imm), ?_⟩,
    ⟨hasWord_encode (.sw rt rs imm), accesses_storeBytes rfl (by decide : 4 ≤ 2 ^ 32)⟩,
    ⟨hasWord_encode (.swc1 ft rs imm), accesses_storeBytes rfl (by decide : 4 ≤ 2 ^ 32)⟩,
    ⟨hasWord_encode (.sdc1 ft rs imm), fun hodd => refuses_of_odd_double rfl ⟨ft, List.mem_singleton_self ft, hodd⟩,
      fun heven => ?_⟩⟩
  · refine accesses_storeBytes ?_ (by decide : 2 ≤ 2 ^ 32)
    rw [← bytes_of_low_half]
    rfl
  · have hexec : exec (.sdc1 ft rs imm) s = _ := withDoubles_even (by simpa [evenReg_iff] using heven)
    refine accesses_storeBytes (hexec.trans ?_) (by decide : 8 ≤ 2 ^ 32)
    rw [storeBytes_append]
    rfl

/-- Settles O41: the bytes of swl are the first of the register's, those of swr the last. -/
theorem partialWordStores : Obligations.PartialWordStores := by
  unfold Obligations.PartialWordStores
  rintro s rt rs imm a first b ha rfl rfl
  rw [← alignedWord_eq, ← byteInWord_eq, ← take_bytesOf _ (Nat.sub_le ..),
    ← drop_bytesOf _ (Nat.le_of_lt_succ (byteInWord_lt a))]
  exact ⟨⟨hasWord_encode (.swl rt rs imm), accesses_swl ha.symm⟩,
    ⟨hasWord_encode (.swr rt rs imm), accesses_swr ha.symm⟩⟩

/-- Settles O42: past the address checks the link decides, and with the link at the address the draws do. -/
theorem storeConditional : Obligations.StoreConditional := by
  unfold Obligations.StoreConditional
  intro s rt rs imm a haddr
  have hexec : exec (.sc rt rs imm) s = s.access .store 4 a a 4 (s.storeConditional rt a) := by
    subst haddr
    rfl
  refine ⟨hasWord_encode (.sc rt rs imm), fun hok => ?_, completes_addressError hexec, completes_busError hexec⟩
  rw [access_ok hok] at hexec
  refine ⟨fun hclear => ?_, fun hset hother => ?_, fun hset hlink hplat htouched => ?_, fun hset hlink _ => ?_⟩
  · exact completes_retire (hexec.trans (storeConditional_unlinked hclear ..)) (storesNothing_clearLink s rt)
  · exact hexec.trans (storeConditional_otherAddress hset hother rt)
  · rw [storeConditional_linked hset hlink, scDrawnFailure_eq_false hplat htouched] at hexec
    exact completes_retire hexec (storesConditionally_write32 ..)
  · rw [storeConditional_linked hset hlink] at hexec
    cases hdraw : s.scDrawnFailure <;> rw [hdraw] at hexec
    · exact completes_retire hexec (.inl (storesConditionally_write32 ..))
    · exact completes_retire hexec (.inr (storesNothing_clearLink s rt))

/-- Settles O44: the parts of the two instructions cover the word, so the pair loads or stores all of it. -/
theorem unalignedWordIdiom : Obligations.UnalignedWordIdiom := by
  unfold Obligations.UnalignedWordIdiom
  rintro s rt rs last b c rfl rfl rfl hlimit hlimit'
  rw [← alignedWord_eq, ← byteInWord_eq, ← byteInWord_eq]
  refine ⟨fun hrt hne hleft hright => ?_, fun hleft hright => ?_⟩
  · have hokLeft : accessOk s .load 1 _ _ _ := ⟨Nat.mod_one _, hlimit, hleft⟩
    have hokRight : accessOk s .load 1 _ _ _ := ⟨Nat.mod_one _, hlimit', hright⟩
    exact ⟨lwl_lwr_loads_word hrt hne hokLeft hokRight, lwr_lwl_loads_word hrt hne hokLeft hokRight⟩
  · exact swl_swr_stores_word ⟨Nat.mod_one _, hlimit, hleft⟩ ⟨Nat.mod_one _, hlimit', hright⟩

end Sys2Proof.Machine
end

section
/-! The multiplications, the divisions and the moves from and to HI and LO of 43_muldiv_hilo.md: the two halves of a
product are the whole product, and the quotient rounded toward zero and its remainder are the word operations `sdiv` and
`srem`, exact but for the quotient of -2^31 / -1. -/

namespace Sys2Proof.Machine

/-! ### The product of two words fits in 64 bits (R235, R236) -/

theorem halves_append (p : Dword) : p.extractLsb' 32 32 ++ p.extractLsb' 0 32 = p := by
  rw [BitVec.extractLsb'_append_extractLsb'_eq_extractLsb' (by rfl), BitVec.extractLsb'_eq_self]

theorem toInt_ofInt_mul (x y : Word) : (BitVec.ofInt 64 (x.toInt * y.toInt)).toInt = x.toInt * y.toInt := by
  have hlow : -2 ^ 62 ≤ x.toInt * y.toInt := BitVec.le_toInt_mul_toInt
  have hhigh : x.toInt * y.toInt ≤ 2 ^ 62 := BitVec.toInt_mul_toInt_le
  exact BitVec.toInt_ofInt_eq_self (by decide) (by omega) (by omega)

theorem toNat_ofNat_mul (x y : Word) : (BitVec.ofNat 64 (x.toNat * y.toNat)).toNat = x.toNat * y.toNat :=
  Nat.mod_eq_of_lt BitVec.toNat_mul_toNat_lt

/-- An instruction that retires with a product in HI and LO writes two words that put together are the product. -/
theorem completes_setProduct {i : Instr} {s : State} {p : Dword} {good : Dword → Prop}
    (hexec : exec i s = retire (s.setProduct p)) (hp : good p) :
    completes i s (fun t => ∃ hi lo : Word, good (hi ++ lo) ∧ writesHiLo s t hi lo) :=
  completes_retire hexec ⟨_, _, (halves_append p).symm ▸ hp, writesHiLo_setHi_setLo ..⟩

/-! ### Division -/

theorem ofInt_tdiv_eq_sdiv (x y : Word) : BitVec.ofInt 32 (x.toInt.tdiv y.toInt) = x.sdiv y := by
  apply BitVec.eq_of_toInt_eq
  rw [BitVec.toInt_ofInt, BitVec.toInt_sdiv]

theorem ofInt_tmod_eq_srem (x y : Word) : BitVec.ofInt 32 (x.toInt.tmod y.toInt) = x.srem y := by
  rw [← BitVec.toInt_srem, BitVec.ofInt_toInt]

/-- Only -2^31 / -1 has a quotient outside the signed range. -/
theorem toInt_ofInt_tdiv {x y : Word} (h : ¬ (x.toInt = -2 ^ 31 ∧ y.toInt = -1)) :
    (BitVec.ofInt 32 (x.toInt.tdiv y.toInt)).toInt = x.toInt.tdiv y.toInt := by
  rw [ofInt_tdiv_eq_sdiv]
  apply BitVec.toInt_sdiv_of_ne_or_ne
  by_contra! hboth
  obtain ⟨rfl, rfl⟩ := hboth
  exact h (by decide)

theorem toInt_ofInt_tmod (x y : Word) :
    (BitVec.ofInt 32 (x.toInt.tmod y.toInt)).toInt = x.toInt.tmod y.toInt := by
  rw [ofInt_tmod_eq_srem, BitVec.toInt_srem]

theorem abs_tmod_lt (a : ℤ) {b : ℤ} (hb : b ≠ 0) : |a.tmod b| < |b| := by
  have hlt : a.natAbs % b.natAbs < b.natAbs := Nat.mod_lt _ (Int.natAbs_pos.2 hb)
  rwa [← Int.natAbs_tmod, ← Int.ofNat_lt, Int.natCast_natAbs, Int.natCast_natAbs] at hlt

theorem tmod_eq_zero_or_sign_eq (a b : ℤ) : a.tmod b = 0 ∨ (a.tmod b).sign = a.sign := by
  rw [Int.sign_tmod]
  split
  case isTrue hdvd => exact .inl (Int.tmod_eq_zero_of_dvd hdvd)
  case isFalse => exact .inr rfl

theorem toInt_eq_zero_iff {v : Word} : v.toInt = 0 ↔ v = 0#32 :=
  BitVec.toInt_inj (y := 0#32)

/-- A division by zero retires with some pair in HI and LO (R231, R232). -/
theorem completes_drawQuotient {i : Instr} {s : State} {op : DivOp} {v : Word}
    (hexec : exec i s = retire (s.drawQuotient op v)) : completes i s (fun t => ∃ hi lo, writesHiLo s t hi lo) :=
  completes_retire hexec ⟨_, _, writesHiLo_setHi_setLo ..⟩

theorem exec_div_zero {s : State} {rs rt : RegNum} (hzero : s.x rt = 0#32) :
    exec (.div rs rt) s = retire (s.drawQuotient .div (s.x rs)) := congrArg retire (if_pos hzero)

theorem exec_div_nonzero {s : State} {rs rt : RegNum} (hne : s.x rt ≠ 0#32) :
    exec (.div rs rt) s = retire ((s.setLo (BitVec.ofInt 32 ((s.x rs).toInt.tdiv (s.x rt).toInt))).setHi
      (BitVec.ofInt 32 ((s.x rs).toInt.tmod (s.x rt).toInt))) := congrArg retire (if_neg hne)

theorem exec_divu_zero {s : State} {rs rt : RegNum} (hzero : s.x rt = 0#32) :
    exec (.divu rs rt) s = retire (s.drawQuotient .divu (s.x rs)) := congrArg retire (if_pos hzero)

/-- The unsigned quotient and remainder are words, so the model's `BitVec.ofNat` loses nothing of them. -/
theorem exec_divu_nonzero {s : State} {rs rt : RegNum} (hne : s.x rt ≠ 0#32) :
    exec (.divu rs rt) s = retire ((s.setLo (s.x rs / s.x rt)).setHi (s.x rs % s.x rt)) := by
  rw [BitVec.udiv_def, BitVec.umod_def]
  exact congrArg retire (if_neg hne)

/-! ### The statements -/

/-- Settles O45: the exact product fits in 64 bits, and HI and LO are its halves. -/
theorem multiplication : Obligations.Multiplication := by
  unfold Obligations.Multiplication
  intro s rs rt
  exact ⟨⟨hasWord_encode (.mult rs rt),
      completes_setProduct (good := fun p => p.toInt = _) rfl (toInt_ofInt_mul ..)⟩,
    ⟨hasWord_encode (.multu rs rt),
      completes_setProduct (good := fun p => p.toNat = _) rfl (toNat_ofNat_mul ..)⟩⟩

/-- Settles O46: the model's quotient and remainder are those of the division that rounds toward zero, the unsigned
ones the word operations `/` and `%`; a divisor zero draws the pair. -/
theorem division : Obligations.Division := by
  unfold Obligations.Division
  rintro s rs rt a b rfl rfl
  simp only [ne_eq, toInt_eq_zero_iff]
  refine ⟨⟨hasWord_encode (.div rs rt), fun hne => completes_retire (exec_div_nonzero hne) ?_,
      fun hzero => completes_drawQuotient (exec_div_zero hzero)⟩,
    ⟨hasWord_encode (.divu rs rt), fun hne => completes_retire (exec_divu_nonzero hne) ?_,
      fun hzero => completes_drawQuotient (exec_divu_zero hzero)⟩⟩
  · refine ⟨_, _, (Int.tdiv_mul_add_tmod ..).symm, abs_tmod_lt _ (mt toInt_eq_zero_iff.1 hne),
      tmod_eq_zero_or_sign_eq .., writesHiLo_setLo_setHi .., fun ha hb => ?_, fun hfits => ?_⟩
    · rw [ha, hb]
      exact ⟨rfl, rfl⟩
    · exact ⟨toInt_ofInt_tdiv hfits, toInt_ofInt_tmod ..⟩
  · exact ⟨_, _, BitVec.toNat_umod, BitVec.toNat_udiv, writesHiLo_setLo_setHi ..⟩

/-- Settles O47: mfhi and mflo retire with a register written, mthi and mtlo with one of the pair. -/
theorem hiLoMoves : Obligations.HiLoMoves := by
  unfold Obligations.HiLoMoves
  intro s rd rs
  exact ⟨⟨hasWord_encode (.mfhi rd), completes_writesX rfl rfl⟩,
    ⟨hasWord_encode (.mflo rd), completes_writesX rfl rfl⟩,
    ⟨hasWord_encode (.mthi rs), completes_retire rfl (writesHiLo_setHi ..)⟩,
    ⟨hasWord_encode (.mtlo rs), completes_retire rfl (writesHiLo_setLo ..)⟩⟩

end Sys2Proof.Machine
end

section
/-! What a floating-point pattern means (R250 to R252): its fields as bits, the fields of a packed pattern, the value of
each row of R251, and that rounding gives a number of the format back (R253). -/

namespace Sys2Proof.Machine

/-! ### The fields of a pattern (R250) -/

theorem fpSign_eq_testBit (fmt : FpFormat) (w : Nat) : fpSign fmt w = w.testBit (expBits fmt + fracBits fmt) := by
  rw [fpSign, Nat.testBit_eq_decide_div_mod_eq, beq_eq_decide]

theorem fpSign_eq_getLsbD {n : Nat} (fmt : FpFormat) (w : BitVec n) :
    fpSign fmt w.toNat = w.getLsbD (expBits fmt + fracBits fmt) :=
  fpSign_eq_testBit fmt w.toNat

theorem fpExpField_eq_extractLsb' {n : Nat} (fmt : FpFormat) (w : BitVec n) :
    fpExpField fmt w.toNat = (w.extractLsb' (fracBits fmt) (expBits fmt)).toNat := by
  rw [fpExpField, BitVec.extractLsb'_toNat, Nat.shiftRight_eq_div_pow]

theorem fpFracField_eq_extractLsb' {n : Nat} (fmt : FpFormat) (w : BitVec n) :
    fpFracField fmt w.toNat = (w.extractLsb' 0 (fracBits fmt)).toNat := by
  rw [fpFracField, BitVec.extractLsb'_toNat, Nat.shiftRight_zero]

theorem maxExp_pos (fmt : FpFormat) : 0 < maxExp fmt := by cases fmt <;> decide

theorem fpFracField_lt (fmt : FpFormat) (w : Nat) : fpFracField fmt w < 2 ^ fracBits fmt :=
  Nat.mod_lt _ (by positivity)

theorem fpExpField_le_maxExp (fmt : FpFormat) (w : Nat) : fpExpField fmt w ≤ maxExp fmt :=
  Nat.le_sub_one_of_lt (Nat.mod_lt _ (by positivity))

/-! ### The value of a pattern, row by row (R251, R252) -/

theorem fpValue_of_nan {fmt : FpFormat} {w : Nat} (he : fpExpField fmt w = maxExp fmt) (hf : fpFracField fmt w ≠ 0) :
    fpValue fmt w = .nan := by
  simp only [fpValue, if_pos he, if_neg hf]

theorem fpValue_of_inf {fmt : FpFormat} {w : Nat} (he : fpExpField fmt w = maxExp fmt) (hf : fpFracField fmt w = 0) :
    fpValue fmt w = .inf (fpSign fmt w) := by
  simp only [fpValue, if_pos he, if_pos hf]

theorem fpValue_of_zero {fmt : FpFormat} {w : Nat} (he : fpExpField fmt w = 0) (hf : fpFracField fmt w = 0) :
    fpValue fmt w = .zero (fpSign fmt w) := by
  have hmax : ¬ fpExpField fmt w = maxExp fmt := he ▸ (maxExp_pos fmt).ne
  simp only [fpValue, if_neg hmax, if_pos he, if_pos hf]

theorem fpValue_of_denormal {fmt : FpFormat} {w : Nat} (he : fpExpField fmt w = 0) (hf : fpFracField fmt w ≠ 0) :
    fpValue fmt w = .finite (fpSign fmt w) (fpFracField fmt w) (emin fmt - fracBits fmt) := by
  have hmax : ¬ fpExpField fmt w = maxExp fmt := he ▸ (maxExp_pos fmt).ne
  simp only [fpValue, if_neg hmax, if_pos he, if_neg hf]

theorem fpValue_of_normal {fmt : FpFormat} {w : Nat} (hlow : 1 ≤ fpExpField fmt w)
    (hhigh : fpExpField fmt w ≤ maxExp fmt - 1) :
    fpValue fmt w = .finite (fpSign fmt w) (2 ^ fracBits fmt + fpFracField fmt w)
      ((fpExpField fmt w : ℤ) - bias fmt - fracBits fmt) := by
  have hmax := maxExp_pos fmt
  simp only [fpValue, if_neg (show ¬ fpExpField fmt w = maxExp fmt by omega),
    if_neg (show ¬ fpExpField fmt w = 0 by omega)]

/-- `m * 2^(e - p)`, as the model holds a number, is `m / 2^p * 2^e`, as R252 writes it. -/
theorem mul_zpow_sub_fracBits (fmt : FpFormat) (m : ℝ) (e : ℤ) :
    m * (2 : ℝ) ^ (e - fracBits fmt) = m / 2 ^ fracBits fmt * (2 : ℝ) ^ e := by
  rw [zpow_sub₀ (by norm_num), zpow_natCast, mul_div_assoc', div_mul_eq_mul_div]

/-- Settles O48: the fields are bits of the word, and each row of R251 is a branch of `fpValue`. -/
theorem patternValues : Obligations.PatternValues := by
  unfold Obligations.PatternValues
  refine ⟨fun w => ⟨fpSign_eq_getLsbD .single w, fpExpField_eq_extractLsb' .single w,
      fpFracField_eq_extractLsb' .single w⟩,
    fun w => ⟨fpSign_eq_getLsbD .double w, fpExpField_eq_extractLsb' .double w,
      fpFracField_eq_extractLsb' .double w⟩,
    by decide, fun fmt w => ⟨fpValue_of_nan, fpValue_of_inf, fpValue_of_zero, fun he hf => ?_, fun hlow hhigh => ?_⟩⟩
  · rw [fpValue_of_denormal he hf]
    refine ⟨trivial, rfl, ?_⟩
    rw [realValue, mul_zpow_sub_fracBits, mul_div_assoc, emin]
  · rw [fpValue_of_normal hlow hhigh]
    refine ⟨trivial, rfl, ?_⟩
    rw [realValue, mul_zpow_sub_fracBits, mul_div_assoc, Nat.cast_add, Nat.cast_pow, Nat.cast_ofNat, add_div,
      div_self (by positivity)]

/-! ### The fields and the value of a packed pattern -/

theorem fpSign_fpPack {fmt : FpFormat} {neg : Bool} {e f : Nat} (he : e ≤ maxExp fmt) (hf : f < 2 ^ fracBits fmt) :
    fpSign fmt (fpPack fmt neg e f) = neg := by
  cases fmt <;> cases neg <;> simp [fpSign, fpPack, maxExp, expBits, fracBits] at * <;> omega

theorem fpExpField_fpPack {fmt : FpFormat} {neg : Bool} {e f : Nat} (he : e ≤ maxExp fmt) (hf : f < 2 ^ fracBits fmt) :
    fpExpField fmt (fpPack fmt neg e f) = e := by
  cases fmt <;> cases neg <;> simp [fpExpField, fpPack, maxExp, expBits, fracBits] at * <;> omega

theorem fpFracField_fpPack {fmt : FpFormat} {neg : Bool} {e f : Nat} (hf : f < 2 ^ fracBits fmt) :
    fpFracField fmt (fpPack fmt neg e f) = f := by
  rw [fpFracField, fpPack, Nat.mul_add_mod', Nat.mod_eq_of_lt hf]

theorem realValue_zeroPattern (fmt : FpFormat) (neg : Bool) : realValue (fpValue fmt (fpPack fmt neg 0 0)) = 0 := by
  have hfrac : 0 < 2 ^ fracBits fmt := by positivity
  rw [fpValue_of_zero (fpExpField_fpPack (Nat.zero_le _) hfrac) (fpFracField_fpPack hfrac), realValue]

theorem fpValue_denormalPattern {fmt : FpFormat} {neg : Bool} {m : Nat} (hm : m ≠ 0) (hlt : m < 2 ^ fracBits fmt) :
    fpValue fmt (fpPack fmt neg 0 m) = .finite neg m (emin fmt - fracBits fmt) := by
  have hfrac := fpFracField_fpPack (neg := neg) (e := 0) hlt
  rw [fpValue_of_denormal (fpExpField_fpPack (Nat.zero_le _) hlt) (hfrac.trans_ne hm), hfrac,
    fpSign_fpPack (Nat.zero_le _) hlt]

theorem fpValue_normalPattern {fmt : FpFormat} {neg : Bool} {m : Nat} {e : ℤ} {f : Nat} (hlow : emin fmt ≤ e)
    (hhigh : e ≤ bias fmt) (hf : (f : ℤ) = e + bias fmt) (hge : 2 ^ fracBits fmt ≤ m)
    (hlt : m < 2 ^ (fracBits fmt + 1)) :
    fpValue fmt (fpPack fmt neg f (m - 2 ^ fracBits fmt)) = .finite neg m (e - fracBits fmt) := by
  have hmax := maxExp_eq fmt
  have hlow' : 1 ≤ f := by rw [emin] at hlow; omega
  have hle : f ≤ maxExp fmt := by omega
  have hfrac : m - 2 ^ fracBits fmt < 2 ^ fracBits fmt := by rw [pow_succ] at hlt; omega
  have hfield := fpExpField_fpPack (neg := neg) hle hfrac
  rw [fpValue_of_normal (by omega) (by omega), fpSign_fpPack hle hfrac, fpFracField_fpPack hfrac, hfield, hf,
    Nat.add_sub_cancel' hge, add_sub_cancel_right]

/-- The mantissa and the exponent of a number of a format. -/
theorem fpValue_finite_bounds {fmt : FpFormat} {w : Nat} {neg : Bool} {m : Nat} {e : ℤ}
    (h : fpValue fmt w = .finite neg m e) :
    m < 2 ^ (fracBits fmt + 1) ∧ emin fmt - fracBits fmt ≤ e ∧ e ≤ bias fmt - fracBits fmt := by
  have hfrac := fpFracField_lt fmt w
  have hexp := fpExpField_le_maxExp fmt w
  have hmax := maxExp_eq fmt
  have hemin : emin fmt ≤ bias fmt := by cases fmt <;> decide
  rw [pow_succ]
  unfold fpValue at h
  dsimp only at h
  split at h
  case isTrue => split at h <;> cases h
  case isFalse hinf =>
    split at h
    case isTrue =>
      split at h
      case isTrue => cases h
      case isFalse => cases h; omega
    case isFalse => cases h; rw [emin]; omega

/-! ### Rounding gives a number of the format back (R253) -/

theorem eq_of_isNearestEven_natCast {n m : Nat} (h : isNearestEven n m) : m = n := by
  have hlt : |(n : ℝ) - m| < 1 := lt_of_le_of_lt (by exact_mod_cast h.1) (by norm_num)
  have habs : |(n : ℤ) - m| < 1 := by exact_mod_cast hlt
  rw [Int.abs_lt_one_iff] at habs
  omega

/-- The pattern of a number that needs no rounding has that number as its value. -/
theorem realValue_of_isRoundedPattern {fmt : FpFormat} {neg : Bool} {m : Nat} {e : ℤ} {w : Nat} (hm : m ≠ 0)
    (hlt : m < 2 ^ (fracBits fmt + 1)) (hlow : emin fmt ≤ e) (hhigh : e ≤ bias fmt)
    (hdenormal : m < 2 ^ fracBits fmt → e = emin fmt) (h : isRoundedPattern fmt neg m e w) :
    realValue (fpValue fmt w) = realValue (.finite neg m (e - fracBits fmt)) := by
  rw [isRoundedPattern, if_neg (not_lt.2 hhigh)] at h
  split at h
  case isTrue hsmall => rw [h, fpValue_denormalPattern hm hsmall, hdenormal hsmall]
  case isFalse hlarge =>
    obtain ⟨f, hf, rfl⟩ := h
    rw [fpValue_normalPattern hlow hhigh hf (not_lt.1 hlarge) hlt]

theorem abs_realValue_finite (neg : Bool) (m : Nat) (e : ℤ) : |realValue (.finite neg m e)| = m * (2 : ℝ) ^ e := by
  cases neg <;> simp [realValue, abs_mul]

theorem decide_realValue_finite_lt_zero {neg : Bool} {m : Nat} {e : ℤ} (hm : 0 < m) :
    decide (realValue (.finite neg m e) < 0) = neg := by
  have hpos : (0 : ℝ) < m * (2 : ℝ) ^ e := by positivity
  cases neg
  · simp [realValue, hpos.le]
  · simpa [realValue] using hpos

/-- A number is the same number with its mantissa shifted left and its exponent lowered. -/
theorem realValue_finite_shift (neg : Bool) (m k : Nat) (e : ℤ) :
    realValue (.finite neg (m * 2 ^ k) e) = realValue (.finite neg m (e + k)) := by
  rw [realValue, realValue, zpow_add₀ (by norm_num), zpow_natCast]
  push_cast
  ring

/-- The binade of a number. -/
theorem log_abs_realValue_finite (neg : Bool) {m : Nat} (e : ℤ) (hm : m ≠ 0) :
    Int.log 2 |realValue (.finite neg m e)| = Nat.log2 m + e := by
  have hself : (2 : ℝ) ^ Nat.log2 m ≤ m := by exact_mod_cast Nat.log2_self_le hm
  have hnext : (m : ℝ) < (2 : ℝ) ^ (Nat.log2 m + 1) := by exact_mod_cast Nat.lt_log2_self (n := m)
  rw [abs_realValue_finite]
  refine log_eq_of_bounds ?_ ?_
  · rw [zpow_add₀ (by norm_num), zpow_natCast]
    gcongr
  · rw [add_right_comm, zpow_add₀ (by norm_num), ← Nat.cast_add_one, zpow_natCast]
    gcongr

/-- A number of at most `p + 1` bits within the exponents of the format is rounded to itself: the unit `2^(d - p)` to
which R253 rounds in its binade `d` divides it. -/
theorem realValue_of_rounds_exact {fmt : FpFormat} {neg : Bool} {m : Nat} {e : ℤ} {zs : Bool} {w : Nat} (hm : 0 < m)
    (hlt : m < 2 ^ (fracBits fmt + 1)) (hlow : emin fmt - fracBits fmt ≤ e) (hhigh : e ≤ bias fmt - fracBits fmt)
    (h : rounds fmt (realValue (.finite neg m e)) zs w) :
    realValue (fpValue fmt w) = realValue (.finite neg m e) := by
  have hemin : emin fmt ≤ bias fmt := by cases fmt <;> decide
  have hbits : Nat.log2 m < fracBits fmt + 1 := (Nat.log2_lt hm.ne').2 hlt
  have hne : realValue (.finite neg m e) ≠ 0 := by
    rw [← abs_pos, abs_realValue_finite]
    positivity
  obtain ⟨d, n, hd, hn, -, hpattern⟩ := h.2 hne
  rw [log_abs_realValue_finite neg e hm.ne'] at hd
  obtain ⟨k, hk⟩ : ∃ k : Nat, e = d - fracBits fmt + k := ⟨(e - (d - fracBits fmt)).toNat, by omega⟩
  have hshift : realValue (.finite neg m e) = realValue (.finite neg (m * 2 ^ k) (d - fracBits fmt)) := by
    rw [realValue_finite_shift, hk]
  have hpos : 0 < m * 2 ^ k := by positivity
  rw [hshift, decide_realValue_finite_lt_zero hpos] at hpattern
  rw [hshift, abs_realValue_finite, mul_div_cancel_right₀ _ (by positivity)] at hn
  obtain rfl := eq_of_isNearestEven_natCast hn
  have hbound : m * 2 ^ k < 2 ^ (fracBits fmt + 1) := by
    calc m * 2 ^ k < 2 ^ (Nat.log2 m + 1) * 2 ^ k := by gcongr; exact Nat.lt_log2_self
      _ = 2 ^ (Nat.log2 m + 1 + k) := (pow_add ..).symm
      _ ≤ 2 ^ (fracBits fmt + 1) := Nat.pow_le_pow_right (by norm_num) (by omega)
  rw [hshift]
  refine realValue_of_isRoundedPattern hpos.ne' hbound (by omega) (by omega) (fun hsmall => ?_) (hpattern hbound.ne)
  by_contra hnormal
  have hlarge : 2 ^ fracBits fmt ≤ m * 2 ^ k := by
    calc 2 ^ fracBits fmt = 2 ^ Nat.log2 m * 2 ^ k := by rw [← pow_add]; congr 1; omega
      _ ≤ m * 2 ^ k := by gcongr; exact Nat.log2_self_le hm.ne'
  omega

/-- Every number of single precision is one of double precision, so its conversion is exact (R284). -/
theorem realValue_of_isConversion_single {a w : Nat} (hnum : isNumber (fpValue .single a))
    (h : isConversion .double (fpValue .single a) w) :
    realValue (fpValue .double w) = realValue (fpValue .single a) := by
  cases hv : fpValue .single a with
  | nan =>
    rw [hv] at hnum
    exact hnum.elim
  | inf neg =>
    rw [hv] at hnum
    exact hnum.elim
  | zero neg =>
    rw [hv] at h
    rw [show w = fpPack .double neg 0 0 from h, realValue_zeroPattern, realValue]
  | finite neg m e =>
    rw [hv] at h
    obtain ⟨hlt, hlow, hhigh⟩ := fpValue_finite_bounds hv
    have hwide : 2 ^ (fracBits .single + 1) ≤ 2 ^ (fracBits .double + 1) := by decide
    have hdeep : emin .double - fracBits .double ≤ emin .single - fracBits .single := by decide
    have hfar : (bias .single : ℤ) - fracBits .single ≤ bias .double - fracBits .double := by decide
    exact realValue_of_rounds_exact (fpValue_finite_pos hv) (hlt.trans_le hwide) (hdeep.trans hlow) (hhigh.trans hfar) h

/-! ### A pattern is a NaN exactly when its value is -/

theorem fpValue_eq_nan_iff (fmt : FpFormat) (w : Nat) :
    fpValue fmt w = .nan ↔ fpExpField fmt w = maxExp fmt ∧ fpFracField fmt w ≠ 0 := by
  refine ⟨fun h => ?_, fun h => fpValue_of_nan h.1 h.2⟩
  unfold fpValue at h
  dsimp only at h
  split at h
  case isTrue he =>
    split at h
    case isTrue => cases h
    case isFalse hf => exact ⟨he, hf⟩
  case isFalse =>
    split at h
    case isTrue => split at h <;> cases h
    case isFalse => cases h

theorem isNaNPattern_iff {fmt : FpFormat} {w : Nat} (hw : w < 2 ^ (1 + expBits fmt + fracBits fmt)) :
    isNaNPattern fmt w ↔ fpValue fmt w = .nan := by
  rw [fpValue_eq_nan_iff, isNaNPattern]
  tauto

/-! ### The sign bit of a pattern replaced (R265, R269) -/

/-- The fields of a pattern packed again under a sign are the sign and the bits below it. -/
theorem fpPack_fields (fmt : FpFormat) (neg : Bool) (w : Nat) :
    fpPack fmt neg (fpExpField fmt w) (fpFracField fmt w) =
      neg.toNat * 2 ^ (expBits fmt + fracBits fmt) + w % 2 ^ (expBits fmt + fracBits fmt) := by
  rw [fpPack, fpExpField, fpFracField, add_comm (expBits fmt), pow_add, Nat.mod_mul]
  cases neg <;> simp <;> ring

theorem ofNat_sign_add_mod {n : Nat} (neg : Bool) (w : BitVec (1 + n)) :
    BitVec.ofNat (1 + n) (neg.toNat * 2 ^ n + w.toNat % 2 ^ n) = BitVec.ofBool neg ++ w.extractLsb' 0 n := by
  apply BitVec.eq_of_toNat_eq
  have hlow : w.toNat % 2 ^ n < 2 ^ n := Nat.mod_lt _ (by positivity)
  have hsign : neg.toNat * 2 ^ n ≤ 2 ^ n := by simpa using Nat.mul_le_mul_right (2 ^ n) (Bool.toNat_le neg)
  rw [BitVec.toNat_append, BitVec.toNat_ofBool, BitVec.extractLsb'_toNat, Nat.shiftRight_zero,
    ← Nat.shiftLeft_add_eq_or_of_lt hlow, Nat.shiftLeft_eq, BitVec.toNat_ofNat, Nat.mod_eq_of_lt]
  rw [pow_add, pow_one, two_mul]
  exact Nat.add_lt_add_of_le_of_lt hsign hlow

/-- The pattern of a single with its sign bit replaced, as a word. -/
theorem ofNat_fpPack_single (neg : Bool) (w : Word) :
    BitVec.ofNat 32 (fpPack .single neg (fpExpField .single w.toNat) (fpFracField .single w.toNat)) =
      BitVec.ofBool neg ++ w.extractLsb' 0 31 := by
  rw [fpPack_fields]
  exact ofNat_sign_add_mod (n := 31) neg w

/-- The pattern of a double with its sign bit replaced, as a doubleword. -/
theorem ofNat_fpPack_double (neg : Bool) (w : Dword) :
    BitVec.ofNat 64 (fpPack .double neg (fpExpField .double w.toNat) (fpFracField .double w.toNat)) =
      BitVec.ofBool neg ++ w.extractLsb' 0 63 := by
  rw [fpPack_fields]
  exact ofNat_sign_add_mod (n := 63) neg w

theorem not_signBit {n : Nat} (w : BitVec n) (k : Nat) : ~~~(w.extractLsb' k 1) = BitVec.ofBool (!w.getLsbD k) := by
  apply BitVec.eq_of_getLsbD_eq
  intro i hi
  obtain rfl : i = 0 := by omega
  simp

end Sys2Proof.Machine
end

section
/-! The instructions of the floating-point unit (R254 to R289): each retires with one register, one pair or `FPcond`
written; what the arithmetic gives is stated by Laws/Fp on values, and here it becomes the word that is written. -/

namespace Sys2Proof.Machine

/-! ### How an instruction of this unit ends -/

/-- With its doubles in even registers, an instruction that names doubles retires as one that names none (R254). -/
theorem completes_doubles {i : Instr} {s u : State} {names : List RegNum} {p : State → Prop}
    (hexec : exec i s = withDoubles names (retire u)) (heven : ∀ n ∈ names, n.getLsbD 0 = false) (hp : p u.advance) :
    completes i s p :=
  completes_retire (hexec.trans (withDoubles_even (by simpa [evenReg_iff] using heven))) hp

theorem forall_even_two {m n : RegNum} (hm : m.getLsbD 0 = false) (hn : n.getLsbD 0 = false) :
    ∀ k ∈ [m, n], k.getLsbD 0 = false :=
  List.forall_mem_cons.2 ⟨hm, List.forall_mem_singleton.2 hn⟩

theorem forall_even_three {l m n : RegNum} (hl : l.getLsbD 0 = false) (hm : m.getLsbD 0 = false)
    (hn : n.getLsbD 0 = false) : ∀ k ∈ [l, m, n], k.getLsbD 0 = false :=
  List.forall_mem_cons.2 ⟨hl, forall_even_two hm hn⟩

theorem toNat_ofNat_single {n : Nat} (h : n < 2 ^ (1 + expBits .single + fracBits .single)) :
    (BitVec.ofNat 32 n).toNat = n := Nat.mod_eq_of_lt h

theorem toNat_ofNat_double {n : Nat} (h : n < 2 ^ (1 + expBits .double + fracBits .double)) :
    (BitVec.ofNat 64 n).toNat = n := Nat.mod_eq_of_lt h

/-- A pattern of single width is written whole. -/
theorem writesF_pattern {s : State} {fd : RegNum} {n : Nat} {good : Nat → Prop}
    (hlt : good n → n < 2 ^ (1 + expBits .single + fracBits .single)) (hgood : good n) :
    ∃ v : Word, good v.toNat ∧ writesF s (s.setF fd (BitVec.ofNat 32 n)).advance fd v :=
  ⟨_, (toNat_ofNat_single (hlt hgood)).symm ▸ hgood, writesF_setF ..⟩

/-- A pattern of double width is written whole. -/
theorem writesDouble_pattern {s : State} {fd : RegNum} {n : Nat} {good : Nat → Prop}
    (hlt : good n → n < 2 ^ (1 + expBits .double + fracBits .double)) (hgood : good n) :
    ∃ v : Dword, good v.toNat ∧ writesDouble s (s.setFd64 fd (BitVec.ofNat 64 n)).advance fd v :=
  ⟨_, (toNat_ofNat_double (hlt hgood)).symm ▸ hgood, writesDouble_setFd64 ..⟩

/-! ### Arithmetic (R255 to R264) -/

/-- Settles O50: the sums of `addValues`, the second operand of a difference negated, or the NaN drawn. -/
theorem floatingAddSubtract : Obligations.FloatingAddSubtract := by
  unfold Obligations.FloatingAddSubtract
  intro s fd fs ft
  exact ⟨⟨hasWord_encode (.addS fd fs ft),
      completes_retire rfl (writesF_pattern isSum_lt (addValues_spec (drawnNaN_isNaN ..)))⟩,
    ⟨hasWord_encode (.addD fd fs ft), fun hd hs ht => completes_doubles rfl (forall_even_three hd hs ht)
      (writesDouble_pattern isSum_lt (addValues_spec (drawnNaN_isNaN ..)))⟩,
    ⟨hasWord_encode (.subS fd fs ft),
      completes_retire rfl (writesF_pattern isSum_lt (addValues_spec (drawnNaN_isNaN ..)))⟩,
    ⟨hasWord_encode (.subD fd fs ft), fun hd hs ht => completes_doubles rfl (forall_even_three hd hs ht)
      (writesDouble_pattern isSum_lt (addValues_spec (drawnNaN_isNaN ..)))⟩⟩

/-- Settles O51: the products of `mulValues` and the quotients of `divValues`, or the NaN drawn. -/
theorem floatingMultiplyDivide : Obligations.FloatingMultiplyDivide := by
  unfold Obligations.FloatingMultiplyDivide
  intro s fd fs ft
  exact ⟨⟨hasWord_encode (.mulS fd fs ft),
      completes_retire rfl (writesF_pattern isProduct_lt (mulValues_spec (drawnNaN_isNaN ..)))⟩,
    ⟨hasWord_encode (.mulD fd fs ft), fun hd hs ht => completes_doubles rfl (forall_even_three hd hs ht)
      (writesDouble_pattern isProduct_lt (mulValues_spec (drawnNaN_isNaN ..)))⟩,
    ⟨hasWord_encode (.divS fd fs ft), completes_retire rfl (writesF_pattern isQuotient_lt
      (divValues_spec (drawnNaN_isNaN ..) (fun _ _ _ => fpValue_finite_pos) (fun _ _ _ => fpValue_finite_pos)))⟩,
    ⟨hasWord_encode (.divD fd fs ft), fun hd hs ht => completes_doubles rfl (forall_even_three hd hs ht)
      (writesDouble_pattern isQuotient_lt
        (divValues_spec (drawnNaN_isNaN ..) (fun _ _ _ => fpValue_finite_pos) (fun _ _ _ => fpValue_finite_pos)))⟩⟩

/-! ### Absolute value and negation (R265, R269) -/

/-- What abs and neg answer for a pattern: its fields under the sign `neg`, nothing for a NaN. -/
def withSign (fmt : FpFormat) (neg : Bool) (w : Nat) : Option Nat :=
  if fpValue fmt w = .nan then none else some (fpPack fmt neg (fpExpField fmt w) (fpFracField fmt w))

theorem fpAbs_eq_withSign (fmt : FpFormat) (w : Nat) : fpAbs fmt w = withSign fmt false w := rfl

theorem fpNeg_eq_withSign (fmt : FpFormat) (w : Nat) : fpNeg fmt w = withSign fmt (!fpSign fmt w) w := rfl

theorem valueOrNaN_withSign_of_nan {s : State} {op : FpOp} {fmt : FpFormat} {operands : List Dword} {neg : Bool}
    {w : Nat} (h : isNaNPattern fmt w) :
    isNaNPattern fmt (s.valueOrNaN op fmt operands (withSign fmt neg w)) := by
  rw [withSign, if_pos ((isNaNPattern_iff h.2.2).1 h)]
  exact drawnNaN_isNaN ..

theorem valueOrNaN_withSign {s : State} {op : FpOp} {fmt : FpFormat} {operands : List Dword} {neg : Bool} {w : Nat}
    (hw : w < 2 ^ (1 + expBits fmt + fracBits fmt)) (h : ¬ isNaNPattern fmt w) :
    s.valueOrNaN op fmt operands (withSign fmt neg w) = fpPack fmt neg (fpExpField fmt w) (fpFracField fmt w) := by
  rw [withSign, if_neg (mt (isNaNPattern_iff hw).2 h)]
  rfl

theorem writesF_withSign {s : State} {op : FpOp} {operands : List Dword} {neg : Bool} {fd : RegNum} {r : Option Nat}
    {a b : Word} (hr : r = withSign .single neg a.toNat)
    (hb : BitVec.ofBool neg ++ a.extractLsb' 0 31 = b) :
    ∃ v : Word, (isNaNPattern .single a.toNat → isNaNPattern .single v.toNat) ∧
      (¬ isNaNPattern .single a.toNat → v = b) ∧
      writesF s (s.setF fd (BitVec.ofNat 32 (s.valueOrNaN op .single operands r))).advance fd v := by
  subst hr
  refine ⟨_, fun hnan => ?_, fun hnum => ?_, writesF_setF ..⟩
  · have h := valueOrNaN_withSign_of_nan (s := s) (op := op) (operands := operands) (neg := neg) hnan
    rwa [toNat_ofNat_single h.2.2]
  · rw [valueOrNaN_withSign a.isLt hnum, ofNat_fpPack_single, hb]

theorem writesDouble_withSign {s : State} {op : FpOp} {operands : List Dword} {neg : Bool} {fd : RegNum} {r : Option Nat}
    {a b : Dword} (hr : r = withSign .double neg a.toNat)
    (hb : BitVec.ofBool neg ++ a.extractLsb' 0 63 = b) :
    ∃ v : Dword, (isNaNPattern .double a.toNat → isNaNPattern .double v.toNat) ∧
      (¬ isNaNPattern .double a.toNat → v = b) ∧
      writesDouble s (s.setFd64 fd (BitVec.ofNat 64 (s.valueOrNaN op .double operands r))).advance fd v := by
  subst hr
  refine ⟨_, fun hnan => ?_, fun hnum => ?_, writesDouble_setFd64 ..⟩
  · have h := valueOrNaN_withSign_of_nan (s := s) (op := op) (operands := operands) (neg := neg) hnan
    rwa [toNat_ofNat_double h.2.2]
  · rw [valueOrNaN_withSign a.isLt hnum, ofNat_fpPack_double, hb]

/-- The sign that neg gives a single is the inverted bit 31. -/
theorem ofBool_not_fpSign_single (w : Word) : BitVec.ofBool (!fpSign .single w.toNat) = ~~~(w.extractLsb' 31 1) := by
  rw [not_signBit, fpSign_eq_getLsbD]
  rfl

/-- The sign that neg gives a double is the inverted bit 63. -/
theorem ofBool_not_fpSign_double (w : Dword) : BitVec.ofBool (!fpSign .double w.toNat) = ~~~(w.extractLsb' 63 1) := by
  rw [not_signBit, fpSign_eq_getLsbD]
  rfl

/-- Settles O52: the roots of `sqrtValue`, or the NaN drawn; abs and neg are the pattern under another sign. -/
theorem rootAbsoluteNegate : Obligations.RootAbsoluteNegate := by
  unfold Obligations.RootAbsoluteNegate
  intro s fd fs
  exact ⟨⟨hasWord_encode (.sqrtS fd fs), completes_retire rfl (writesF_pattern isRoot_lt
      (sqrtValue_spec (drawnNaN_isNaN ..) (fun _ _ _ => fpValue_finite_pos)))⟩,
    ⟨hasWord_encode (.sqrtD fd fs), fun hd hs => completes_doubles rfl (forall_even_two hd hs)
      (writesDouble_pattern isRoot_lt (sqrtValue_spec (drawnNaN_isNaN ..) (fun _ _ _ => fpValue_finite_pos)))⟩,
    ⟨hasWord_encode (.absS fd fs), completes_retire rfl (writesF_withSign (fpAbs_eq_withSign ..) rfl)⟩,
    ⟨hasWord_encode (.absD fd fs), fun hd hs => completes_doubles rfl (forall_even_two hd hs)
      (writesDouble_withSign (fpAbs_eq_withSign ..) rfl)⟩,
    ⟨hasWord_encode (.negS fd fs), completes_retire rfl
      (writesF_withSign (fpNeg_eq_withSign ..)
        (congrArg (· ++ (s.f fs).extractLsb' 0 31) (ofBool_not_fpSign_single _)))⟩,
    ⟨hasWord_encode (.negD fd fs), fun hd hs => completes_doubles rfl (forall_even_two hd hs)
      (writesDouble_withSign (fpNeg_eq_withSign ..)
        (congrArg (· ++ (s.fd64 fs).extractLsb' 0 63) (ofBool_not_fpSign_double _)))⟩⟩

/-! ### Moves (R267, R268, R279 to R282) -/

theorem exec_movzS (fd fs rt : RegNum) (s : State) :
    exec (.movzS fd fs rt) s = retire (if s.x rt = 0#32 then s.setF fd (s.f fs) else s) := rfl

theorem exec_movnS (fd fs rt : RegNum) (s : State) :
    exec (.movnS fd fs rt) s = retire (if s.x rt = 0#32 then s else s.setF fd (s.f fs)) := rfl

theorem exec_movzD (fd fs rt : RegNum) (s : State) :
    exec (.movzD fd fs rt) s = withDoubles [fd, fs] (retire (if s.x rt = 0#32 then s.setFd64 fd (s.fd64 fs) else s)) :=
  rfl

theorem exec_movnD (fd fs rt : RegNum) (s : State) :
    exec (.movnD fd fs rt) s = withDoubles [fd, fs] (retire (if s.x rt = 0#32 then s else s.setFd64 fd (s.fd64 fs))) :=
  rfl

/-- Settles O53: mov retires with the copy written; movz and movn choose between that state and the old one. -/
theorem floatingMoves : Obligations.FloatingMoves := by
  unfold Obligations.FloatingMoves
  intro s fd fs rt
  refine ⟨⟨hasWord_encode (.movS fd fs), completes_retire rfl (writesF_setF ..)⟩,
    ⟨hasWord_encode (.movD fd fs), fun hd hs =>
      completes_doubles rfl (forall_even_two hd hs) (writesDouble_setFd64 ..)⟩,
    ⟨hasWord_encode (.movzS fd fs rt), fun hzero => ?_, fun hnonzero => ?_⟩,
    ⟨hasWord_encode (.movzD fd fs rt), fun hd hs => ⟨fun hzero => ?_, fun hnonzero => ?_⟩⟩,
    ⟨hasWord_encode (.movnS fd fs rt), fun hnonzero => ?_, fun hzero => ?_⟩,
    ⟨hasWord_encode (.movnD fd fs rt), fun hd hs => ⟨fun hnonzero => ?_, fun hzero => ?_⟩⟩⟩
  · exact completes_retire (exec_movzS ..) (if_pos hzero ▸ writesF_setF ..)
  · exact completes_retire (exec_movzS ..) (if_neg hnonzero ▸ changesNothing_advance s)
  · exact completes_doubles (exec_movzD ..) (forall_even_two hd hs) (if_pos hzero ▸ writesDouble_setFd64 ..)
  · exact completes_doubles (exec_movzD ..) (forall_even_two hd hs) (if_neg hnonzero ▸ changesNothing_advance s)
  · exact completes_retire (exec_movnS ..) (if_neg hnonzero ▸ writesF_setF ..)
  · exact completes_retire (exec_movnS ..) (if_pos hzero ▸ changesNothing_advance s)
  · exact completes_doubles (exec_movnD ..) (forall_even_two hd hs) (if_neg hnonzero ▸ writesDouble_setFd64 ..)
  · exact completes_doubles (exec_movnD ..) (forall_even_two hd hs) (if_pos hzero ▸ changesNothing_advance s)

/-! ### Conversions (R271 to R278, R283 to R286) -/

/-- Settles O54: the conversions of `convertValue`, or the NaN drawn; every single keeps its value. -/
theorem formatConversions : Obligations.FormatConversions := by
  unfold Obligations.FormatConversions
  intro s fd fs
  refine ⟨⟨hasWord_encode (.cvtSD fd fs), fun hs => completes_doubles rfl (List.forall_mem_singleton.2 hs)
      (writesF_pattern isConversion_lt (convertValue_spec (drawnNaN_isNaN ..)))⟩,
    ⟨hasWord_encode (.cvtDS fd fs), fun hd => completes_doubles rfl (List.forall_mem_singleton.2 hd) ?_⟩⟩
  obtain ⟨v, hv, hwrites⟩ := writesDouble_pattern isConversion_lt (convertValue_spec (drawnNaN_isNaN ..))
  exact ⟨v, hv, fun hnum => realValue_of_isConversion_single hnum hv, hwrites⟩

/-- Settles O55: the integers of `toWord`, or the word drawn. -/
theorem conversionsToWord : Obligations.ConversionsToWord := by
  unfold Obligations.ConversionsToWord
  intro s fd fs
  refine ⟨⟨hasWord_encode (.roundWS fd fs), completes_retire rfl ⟨_, toWord_spec, writesF_setF ..⟩⟩,
    ⟨hasWord_encode (.roundWD fd fs), fun hs =>
      completes_doubles rfl (List.forall_mem_singleton.2 hs) ⟨_, toWord_spec, writesF_setF ..⟩⟩,
    ⟨hasWord_encode (.truncWS fd fs), completes_retire rfl ⟨_, toWord_spec, writesF_setF ..⟩⟩,
    ⟨hasWord_encode (.truncWD fd fs), fun hs =>
      completes_doubles rfl (List.forall_mem_singleton.2 hs) ⟨_, toWord_spec, writesF_setF ..⟩⟩,
    ⟨hasWord_encode (.ceilWS fd fs), completes_retire rfl ⟨_, toWord_spec, writesF_setF ..⟩⟩,
    ⟨hasWord_encode (.ceilWD fd fs), fun hs =>
      completes_doubles rfl (List.forall_mem_singleton.2 hs) ⟨_, toWord_spec, writesF_setF ..⟩⟩,
    ⟨hasWord_encode (.floorWS fd fs), completes_retire rfl ⟨_, toWord_spec, writesF_setF ..⟩⟩,
    ⟨hasWord_encode (.floorWD fd fs), fun hs =>
      completes_doubles rfl (List.forall_mem_singleton.2 hs) ⟨_, toWord_spec, writesF_setF ..⟩⟩,
    ⟨hasWord_encode (.cvtWS fd fs), completes_retire rfl ⟨_, toWord_spec, writesF_setF ..⟩⟩,
    ⟨hasWord_encode (.cvtWD fd fs), fun hs =>
      completes_doubles rfl (List.forall_mem_singleton.2 hs) ⟨_, toWord_spec, writesF_setF ..⟩⟩⟩

/-! ### Compares (R289) -/

/-- The relation of two values is one that the table lists for the bits `cond`. -/
def relationListed (cond : BitVec 4) (a b : FpValue) : Prop :=
  (cond.getLsbD 2 = true ∧ isLess a b) ∨ (cond.getLsbD 1 = true ∧ isEqual a b) ∨
    (cond.getLsbD 0 = true ∧ isUnordered a b)

theorem fpPredicate_iff (cond : BitVec 4) (a b : FpValue) :
    fpPredicate cond (compareValues a b) = true ↔ relationListed cond a b := by
  obtain ⟨hless, hequal, hunordered⟩ := compareValues_spec a b
  simp only [fpPredicate, relationListed, Bool.or_eq_true, Bool.and_eq_true, beq_iff_eq, hless, hequal, hunordered,
    or_assoc]

/-! The rows of the table, with the signaling bit clear. -/

theorem listed_f (a b : FpValue) : relationListed 0#4 a b ↔ False := by simp [relationListed]
theorem listed_un (a b : FpValue) : relationListed 1#4 a b ↔ isUnordered a b := by simp [relationListed]
theorem listed_eq (a b : FpValue) : relationListed 2#4 a b ↔ isEqual a b := by simp [relationListed]
theorem listed_ueq (a b : FpValue) : relationListed 3#4 a b ↔ isEqual a b ∨ isUnordered a b := by simp [relationListed]
theorem listed_olt (a b : FpValue) : relationListed 4#4 a b ↔ isLess a b := by simp [relationListed]
theorem listed_ult (a b : FpValue) : relationListed 5#4 a b ↔ isLess a b ∨ isUnordered a b := by simp [relationListed]
theorem listed_ole (a b : FpValue) : relationListed 6#4 a b ↔ isLess a b ∨ isEqual a b := by simp [relationListed]
theorem listed_ule (a b : FpValue) : relationListed 7#4 a b ↔ isLess a b ∨ isEqual a b ∨ isUnordered a b := by
  simp [relationListed]

/-- Bit 3 of `cond` has no effect: a signaling predicate is its partner. -/
theorem fpPredicate_signaling (cond : BitVec 4) (rel : FpRelation) :
    fpPredicate (8#4 ||| cond) rel = fpPredicate cond rel := by
  simp [fpPredicate]

theorem comparesAs_single {i : Instr} {s : State} {cond : BitVec 4} {fs ft : RegNum} {p : Prop}
    (hexec : exec i s = fpCompareS cond fs ft s)
    (hp : relationListed cond (fpValue .single (s.f fs).toNat) (fpValue .single (s.f ft).toNat) ↔ p) :
    comparesAs i s p :=
  completes_retire hexec ⟨_, (fpPredicate_iff ..).trans hp, writesFpcond_setFpcond ..⟩

theorem comparesAs_double {i : Instr} {s : State} {cond : BitVec 4} {fs ft : RegNum} {p : Prop}
    (hs : fs.getLsbD 0 = false) (ht : ft.getLsbD 0 = false) (hexec : exec i s = fpCompareD cond fs ft s)
    (hp : relationListed cond (fpValue .double (s.fd64 fs).toNat) (fpValue .double (s.fd64 ft).toNat) ↔ p) :
    comparesAs i s p :=
  completes_doubles hexec (forall_even_two hs ht) ⟨_, (fpPredicate_iff ..).trans hp, writesFpcond_setFpcond ..⟩

theorem fpCompareS_signaling (cond : BitVec 4) (fs ft : RegNum) (s : State) :
    fpCompareS (8#4 ||| cond) fs ft s = fpCompareS cond fs ft s := by
  rw [fpCompareS, fpPredicate_signaling, fpCompareS]

theorem fpCompareD_signaling (cond : BitVec 4) (fs ft : RegNum) (s : State) :
    fpCompareD (8#4 ||| cond) fs ft s = fpCompareD cond fs ft s := by
  rw [fpCompareD, fpPredicate_signaling, fpCompareD]

/-- What a compare of singles does, its signaling partner does. -/
theorem comparesAs_signaling_single {i j : Instr} {s : State} {cond : BitVec 4} {fs ft : RegNum} {p : Prop}
    (h : comparesAs i s p) (hquiet : exec i s = fpCompareS cond fs ft s)
    (hsignaling : exec j s = fpCompareS (8#4 ||| cond) fs ft s) : comparesAs j s p := by
  obtain ⟨t, hexec, ht⟩ := h
  exact ⟨t, by rw [hsignaling, fpCompareS_signaling, ← hquiet, hexec], ht⟩

/-- What a compare of doubles does, its signaling partner does. -/
theorem comparesAs_signaling_double {i j : Instr} {s : State} {cond : BitVec 4} {fs ft : RegNum} {p : Prop}
    (h : comparesAs i s p) (hquiet : exec i s = fpCompareD cond fs ft s)
    (hsignaling : exec j s = fpCompareD (8#4 ||| cond) fs ft s) : comparesAs j s p := by
  obtain ⟨t, hexec, ht⟩ := h
  exact ⟨t, by rw [hsignaling, fpCompareD_signaling, ← hquiet, hexec], ht⟩

/-- Settles O56: each of the eight is the compare of its row of the table. -/
theorem singleCompares : Obligations.SingleCompares := by
  unfold Obligations.SingleCompares
  rintro s fs ft a b rfl rfl
  exact ⟨⟨hasWord_encode (.cFS fs ft), comparesAs_single rfl (listed_f ..)⟩,
    ⟨hasWord_encode (.cUnS fs ft), comparesAs_single rfl (listed_un ..)⟩,
    ⟨hasWord_encode (.cEqS fs ft), comparesAs_single rfl (listed_eq ..)⟩,
    ⟨hasWord_encode (.cUeqS fs ft), comparesAs_single rfl (listed_ueq ..)⟩,
    ⟨hasWord_encode (.cOltS fs ft), comparesAs_single rfl (listed_olt ..)⟩,
    ⟨hasWord_encode (.cUltS fs ft), comparesAs_single rfl (listed_ult ..)⟩,
    ⟨hasWord_encode (.cOleS fs ft), comparesAs_single rfl (listed_ole ..)⟩,
    ⟨hasWord_encode (.cUleS fs ft), comparesAs_single rfl (listed_ule ..)⟩⟩

/-- Settles O57: each of the eight does what its partner of O56 does. -/
theorem singleSignalingCompares : Obligations.SingleSignalingCompares := by
  unfold Obligations.SingleSignalingCompares
  intro s fs ft a b ha hb
  obtain ⟨⟨-, hf⟩, ⟨-, hun⟩, ⟨-, heq⟩, ⟨-, hueq⟩, ⟨-, holt⟩, ⟨-, hult⟩, ⟨-, hole⟩, -, hule⟩ :=
    singleCompares s fs ft a b ha hb
  exact ⟨⟨hasWord_encode (.cSfS fs ft), comparesAs_signaling_single hf rfl rfl⟩,
    ⟨hasWord_encode (.cNgleS fs ft), comparesAs_signaling_single hun rfl rfl⟩,
    ⟨hasWord_encode (.cSeqS fs ft), comparesAs_signaling_single heq rfl rfl⟩,
    ⟨hasWord_encode (.cNglS fs ft), comparesAs_signaling_single hueq rfl rfl⟩,
    ⟨hasWord_encode (.cLtS fs ft), comparesAs_signaling_single holt rfl rfl⟩,
    ⟨hasWord_encode (.cNgeS fs ft), comparesAs_signaling_single hult rfl rfl⟩,
    ⟨hasWord_encode (.cLeS fs ft), comparesAs_signaling_single hole rfl rfl⟩,
    ⟨hasWord_encode (.cNgtS fs ft), comparesAs_signaling_single hule rfl rfl⟩⟩

/-- Settles O58: each of the eight is the compare of its row of the table, on even registers. -/
theorem doubleCompares : Obligations.DoubleCompares := by
  unfold Obligations.DoubleCompares
  rintro s fs ft a b hs ht rfl rfl
  exact ⟨⟨hasWord_encode (.cFD fs ft), comparesAs_double hs ht rfl (listed_f ..)⟩,
    ⟨hasWord_encode (.cUnD fs ft), comparesAs_double hs ht rfl (listed_un ..)⟩,
    ⟨hasWord_encode (.cEqD fs ft), comparesAs_double hs ht rfl (listed_eq ..)⟩,
    ⟨hasWord_encode (.cUeqD fs ft), comparesAs_double hs ht rfl (listed_ueq ..)⟩,
    ⟨hasWord_encode (.cOltD fs ft), comparesAs_double hs ht rfl (listed_olt ..)⟩,
    ⟨hasWord_encode (.cUltD fs ft), comparesAs_double hs ht rfl (listed_ult ..)⟩,
    ⟨hasWord_encode (.cOleD fs ft), comparesAs_double hs ht rfl (listed_ole ..)⟩,
    ⟨hasWord_encode (.cUleD fs ft), comparesAs_double hs ht rfl (listed_ule ..)⟩⟩

/-- Settles O59: each of the eight does what its partner of O58 does. -/
theorem doubleSignalingCompares : Obligations.DoubleSignalingCompares := by
  unfold Obligations.DoubleSignalingCompares
  intro s fs ft a b hs ht ha hb
  obtain ⟨⟨-, hf⟩, ⟨-, hun⟩, ⟨-, heq⟩, ⟨-, hueq⟩, ⟨-, holt⟩, ⟨-, hult⟩, ⟨-, hole⟩, -, hule⟩ :=
    doubleCompares s fs ft a b hs ht ha hb
  exact ⟨⟨hasWord_encode (.cSfD fs ft), comparesAs_signaling_double hf rfl rfl⟩,
    ⟨hasWord_encode (.cNgleD fs ft), comparesAs_signaling_double hun rfl rfl⟩,
    ⟨hasWord_encode (.cSeqD fs ft), comparesAs_signaling_double heq rfl rfl⟩,
    ⟨hasWord_encode (.cNglD fs ft), comparesAs_signaling_double hueq rfl rfl⟩,
    ⟨hasWord_encode (.cLtD fs ft), comparesAs_signaling_double holt rfl rfl⟩,
    ⟨hasWord_encode (.cNgeD fs ft), comparesAs_signaling_double hult rfl rfl⟩,
    ⟨hasWord_encode (.cLeD fs ft), comparesAs_signaling_double hole rfl rfl⟩,
    ⟨hasWord_encode (.cNgtD fs ft), comparesAs_signaling_double hule rfl rfl⟩⟩

end Sys2Proof.Machine
end

section
/-! Coprocessor 0, the instructions that raise an exception on purpose, and those without an effect
(45_system_coprocessor.md). Each meaning is one of four shapes: an exception raised at once, `State.trapIf` of the
rule's condition, an instruction retired unchanged, or `State.kernelOnly` of what kernel mode does. eret tests in_ds, and
mfc0 and mtc0 the register number, before the mode is looked at (R397, log entry 16). -/

namespace Sys2Proof.Machine

/-! ### An instruction of the kernel, by the mode (R390, R411) -/

theorem completes_kernelOnly_user {i : Instr} {s : State} {run : Result} (hexec : exec i s = s.kernelOnly run)
    (huser : inUserMode s) : completes i s (fun t => enters s t 11#5 none) :=
  completes_raise (hexec.trans (kernelOnly_user ((userMode_iff s).2 huser)))

theorem exec_kernelOnly_kernel {i : Instr} {s : State} {run : Result} (hexec : exec i s = s.kernelOnly run)
    (hkernel : ¬ inUserMode s) : exec i s = run := by
  have hmode : s.userMode = false := by rwa [← Bool.not_eq_true, userMode_iff]
  exact hexec.trans (kernelOnly_kernel hmode)

theorem completes_kernelOnly_retire {i : Instr} {s u : State} {p : State → Prop}
    (hexec : exec i s = s.kernelOnly (retire u)) (hkernel : ¬ inUserMode s) (hp : p u.advance) : completes i s p :=
  completes_retire (exec_kernelOnly_kernel hexec hkernel) hp

/-! ### Return from an exception (R332, R400) -/

theorem exceptionReturn_eq (s : State) :
    s.exceptionReturn = { s with
      status := s.status &&& ~~~2#32, llBit := false, llTouched := false, pc := s.epc, npc := s.epc + 4#32,
      inDs := false } := by
  rw [State.exceptionReturn, statusWithEl_false]

theorem execEret_outside_slot {s : State} (hslot : s.inDs = false) :
    execEret s = s.kernelOnly (.next s.exceptionReturn) := if_neg (Bool.eq_false_iff.1 hslot)

/-! ### A trap, by its condition (R342, R393) -/

theorem completes_trapIf {i : Instr} {s : State} {cond : Prop} [Decidable cond]
    (hexec : exec i s = s.trapIf (decide cond)) :
    (cond → completes i s (fun t => enters s t 13#5 none)) ∧ (¬ cond → completes i s (changesNothing s)) := by
  refine ⟨fun htrue => ?_, fun hfalse => ?_⟩
  · rw [decide_eq_true htrue] at hexec
    exact completes_raise hexec
  · rw [decide_eq_false hfalse] at hexec
    exact completes_retire hexec (changesNothing_advance s)

/-! ### A control register that no source describes (R39) -/

theorem exec_mfc0 (rt rd : RegNum) (s : State) :
    exec (.mfc0 rt rd) s = s.readControl rd (fun v => s.kernelOnly (retire (s.setX rt v))) := rfl

theorem exec_mtc0 (rt rd : RegNum) (s : State) :
    exec (.mtc0 rt rd) s = s.writeControl rd (s.x rt) (fun t => s.kernelOnly (retire t)) := rfl

theorem refuses_mfc0_undescribed {rd : RegNum} (h8 : rd ≠ 8#5) (h12 : rd ≠ 12#5) (h13 : rd ≠ 13#5)
    (h14 : rd ≠ 14#5) (s : State) (rt : RegNum) : refuses (.mfc0 rt rd) s .undescribedControlRegister := by
  have hcases := readControl_cases s rd (fun v => s.kernelOnly (retire (s.setX rt v)))
  simp only [h8, h12, h13, h14, false_and, false_or] at hcases
  obtain ⟨-, hrefused⟩ := hcases
  exact (exec_mfc0 rt rd s).trans hrefused

theorem refuses_mtc0_undescribed {rd : RegNum} (h8 : rd ≠ 8#5) (h12 : rd ≠ 12#5) (h13 : rd ≠ 13#5)
    (h14 : rd ≠ 14#5) (s : State) (rt : RegNum) : refuses (.mtc0 rt rd) s .undescribedControlRegister := by
  have hcases := writeControl_cases s rd (s.x rt) (fun t => s.kernelOnly (retire t))
  simp only [h8, h12, h13, h14, false_and, false_or] at hcases
  obtain ⟨-, hrefused⟩ := hcases
  exact (exec_mtc0 rt rd s).trans hrefused

/-! ### mfc0 and mtc0 in kernel mode -/

theorem completes_readControl {s : State} {rt rd : RegNum} {v : Word}
    (hexec : exec (.mfc0 rt rd) s = s.kernelOnly (retire (s.setX rt v))) (hkernel : ¬ inUserMode s) :
    completes (.mfc0 rt rd) s (fun t => writesX s t rt v) :=
  completes_kernelOnly_retire hexec hkernel (writesX_setX s rt v)

/-- Bits that are zero in the value written are zero in the register after it; register 0 has no other bits. -/
theorem x_and_eq_zero_of_writesX {s t : State} {rt : RegNum} {v mask : Word} (hwrites : writesX s t rt v)
    (hzero : v &&& mask = 0#32) : t.x rt &&& mask = 0#32 := by
  obtain ⟨hreg, -, -⟩ := hwrites
  rw [hreg rt]
  by_cases hrt : rt = 0#5
  · simp [hrt]
  · simpa [hrt] using hzero

/-- What a read of a control register writes, with the bits of it that the invariant keeps zero. -/
theorem completes_readControl_unnamed {s : State} {rt rd : RegNum} {v mask : Word}
    (hexec : exec (.mfc0 rt rd) s = s.kernelOnly (retire (s.setX rt v))) (hunnamed : s.Inv → v &&& mask = 0#32)
    (hkernel : ¬ inUserMode s) :
    completes (.mfc0 rt rd) s (fun t => writesX s t rt v ∧ (s.Inv → t.x rt &&& mask = 0#32)) :=
  completes_kernelOnly_retire hexec hkernel
    ⟨writesX_setX s rt v, fun hinv => x_and_eq_zero_of_writesX (writesX_setX s rt v) (hunnamed hinv)⟩

/-! ### The statements -/

/-- Settles O24: eret tests in_ds, then the mode, and in kernel mode is `State.exceptionReturn`. -/
theorem exceptionReturn : Obligations.ExceptionReturn := by
  unfold Obligations.ExceptionReturn
  intro s
  refine ⟨hasWord_encode .eret, execEret_in_slot, fun huser hslot => ?_, fun hkernel hslot => ?_⟩
  · exact completes_kernelOnly_user (execEret_outside_slot hslot) huser
  · exact ⟨_, exec_kernelOnly_kernel (execEret_outside_slot hslot) hkernel, exceptionReturn_eq s, fun _ => rfl⟩

/-- Settles O25: each of the six is `State.raise` of its code, whatever the state and the operands. -/
theorem instructionsThatAlwaysRaise : Obligations.InstructionsThatAlwaysRaise := by
  unfold Obligations.InstructionsThatAlwaysRaise
  refine ⟨fun s code => ?_, fun s rt rs imm => ?_⟩
  · exact ⟨⟨hasWord_encode (.syscall code), completes_raise (c := .sys) rfl⟩,
      ⟨hasWord_encode (.brk code), completes_raise (c := .bp) rfl⟩⟩
  · exact ⟨⟨hasWord_encode (.lwc2 rt rs imm), completes_raise (c := .cpu) rfl⟩,
      ⟨hasWord_encode (.ldc2 rt rs imm), completes_raise (c := .cpu) rfl⟩,
      ⟨hasWord_encode (.swc2 rt rs imm), completes_raise (c := .cpu) rfl⟩,
      ⟨hasWord_encode (.sdc2 rt rs imm), completes_raise (c := .cpu) rfl⟩⟩

/-- Settles O26: each of the six is `State.trapIf` of its rule's comparison. -/
theorem trapInstructions : Obligations.TrapInstructions := by
  unfold Obligations.TrapInstructions
  intro s rs rt code
  exact ⟨⟨hasWord_encode (.tge rs rt code), completes_trapIf rfl⟩,
    ⟨hasWord_encode (.tgeu rs rt code), completes_trapIf rfl⟩,
    ⟨hasWord_encode (.tlt rs rt code), completes_trapIf rfl⟩,
    ⟨hasWord_encode (.tltu rs rt code), completes_trapIf rfl⟩,
    ⟨hasWord_encode (.teq rs rt code), completes_trapIf rfl⟩,
    ⟨hasWord_encode (.tne rs rt code), completes_trapIf rfl⟩⟩

/-- Settles O27: the number is looked at first; each of the four described registers is then read by an instruction of
the kernel, and the invariant is what keeps the unnamed bits of Status and Cause zero. -/
theorem readControlRegister : Obligations.ReadControlRegister := by
  unfold Obligations.ReadControlRegister
  intro s rt rd
  refine ⟨hasWord_encode (.mfc0 rt rd), fun h8 h12 h13 h14 => refuses_mfc0_undescribed h8 h12 h13 h14 s rt,
    fun huser hrd => ?_, fun hkernel => ⟨?_, ?_, ?_, ?_⟩⟩
  · obtain rfl | rfl | rfl | rfl := hrd <;> exact completes_kernelOnly_user rfl huser
  · rintro rfl
    exact completes_readControl rfl hkernel
  · rintro rfl
    exact completes_readControl_unnamed rfl State.Inv.statusUnnamed hkernel
  · rintro rfl
    exact completes_readControl_unnamed rfl State.Inv.causeUnnamed hkernel
  · rintro rfl
    exact completes_readControl rfl hkernel

/-- Settles O28: the number is looked at first; each of the four described registers is then written by an instruction
of the kernel, Status and Cause under the masks of R331 and BadVAddr not at all. -/
theorem writeControlRegister : Obligations.WriteControlRegister := by
  unfold Obligations.WriteControlRegister
  intro s rt rd
  refine ⟨hasWord_encode (.mtc0 rt rd), fun h8 h12 h13 h14 => refuses_mtc0_undescribed h8 h12 h13 h14 s rt,
    fun huser hrd => ?_, fun hkernel => ⟨?_, ?_, ?_, ?_⟩⟩
  · obtain rfl | rfl | rfl | rfl := hrd <;> exact completes_kernelOnly_user rfl huser
  · rintro rfl
    exact completes_kernelOnly_retire rfl hkernel ⟨fun _ => rfl, rfl⟩
  · rintro rfl
    exact completes_kernelOnly_retire rfl hkernel ⟨fun _ => rfl, rfl⟩
  · rintro rfl
    exact completes_kernelOnly_retire rfl hkernel ⟨fun _ => rfl, rfl⟩
  · rintro rfl
    exact completes_kernelOnly_retire rfl hkernel (changesNothing_advance s)

/-- Settles O29: sync and pref retire the state as it is; cache does so in kernel mode only. -/
theorem instructionsWithoutEffect : Obligations.InstructionsWithoutEffect := by
  unfold Obligations.InstructionsWithoutEffect
  intro s op hint rs imm
  exact ⟨⟨hasWord_encode .sync, completes_retire rfl (changesNothing_advance s)⟩,
    ⟨hasWord_encode (.pref hint rs imm), completes_retire rfl (changesNothing_advance s)⟩,
    ⟨hasWord_encode (.cache op rs imm),
      fun hkernel => completes_kernelOnly_retire rfl hkernel (changesNothing_advance s),
      completes_kernelOnly_user rfl⟩⟩

end Sys2Proof.Machine
end

section
/-! Exceptions and interrupts (60_exceptions.md): what trap entry leaves (R395), the condition under which a step takes
an interrupt (R392, R399), and the bus error of a fetch (R385). -/

namespace Sys2Proof.Machine

/-! ### Raising an exception is trap entry (R10, R395) -/

theorem raise_enters (s : State) (c : ExcCode) : ∃ t, s.raise c = .next t ∧ enters s t c.number none :=
  ⟨_, raise_next.2 rfl, enters_trapEntry s c none⟩

theorem raiseAddress_enters (s : State) (c : ExcCode) (a : Word) :
    ∃ t, s.raiseAddress c a = .next t ∧ enters s t c.number (some a) :=
  ⟨_, raiseAddress_next.2 rfl, enters_trapEntry s c (some a)⟩

/-! ### A pending interrupt, bit by bit (R392, R399) -/

/-- A request of Cause.IP that Status.IM lets through, as a pair of bits of the two registers. -/
theorem unmaskedRequest_iff (s : State) :
    s.ip &&& s.im ≠ 0#8 ↔ ∃ k, k < 8 ∧ s.cause.getLsbD (8 + k) = true ∧ s.status.getLsbD (8 + k) = true := by
  have hbit (k : Nat) (hk : k < 8) :
      (s.ip &&& s.im).getLsbD k = (s.cause.getLsbD (8 + k) && s.status.getLsbD (8 + k)) := by
    simp [State.ip, State.im, hk]
  constructor
  · intro hne
    by_contra hnone
    refine hne (BitVec.eq_of_getLsbD_eq fun k hk => ?_)
    rw [hbit k hk, BitVec.getLsbD_zero, ← Bool.not_eq_true, Bool.and_eq_true]
    exact fun hboth => hnone ⟨k, hk, hboth⟩
  · rintro ⟨k, hk, hboth⟩ hzero
    have hclear := hbit k hk
    rw [hzero, BitVec.getLsbD_zero, Bool.and_eq_true_iff.2 hboth] at hclear
    exact Bool.false_ne_true hclear

theorem interruptPending_iff (s : State) :
    s.interruptPending = true ↔
      s.status.getLsbD 0 = true ∧ s.status.getLsbD 1 = false ∧
        ∃ k, k < 8 ∧ s.cause.getLsbD (8 + k) = true ∧ s.status.getLsbD (8 + k) = true := by
  rw [← unmaskedRequest_iff]
  simp [State.interruptPending, State.ie, State.el, and_assoc]

theorem step_of_interruptPending {s : State} (hint : s.beginStep.interruptPending = true) :
    step s = s.beginStep.raise .int := if_pos hint

/-! ### The bus error of a fetch (R385) -/

/-- The bus is asked only past the checks of R67 and R74, and before the record of stores is looked at (R85). -/
theorem fetch_busError {s : State} (haligned : s.pc.toNat % 4 = 0) (hlimit : ¬ aboveLimit s s.pc)
    (hserved : ¬ served s .fetch s.pc 4) : s.fetch = .busError := by
  unfold State.fetch
  rw [if_neg (not_not.2 haligned), if_neg (by rwa [aboveUserLimit_iff]),
    if_pos (by simpa using mt (serves_iff ..).1 hserved)]

theorem step_of_fetch_busError {s : State} (hint : s.beginStep.interruptPending = false)
    (hfetch : s.beginStep.fetch = .busError) : step s = s.beginStep.raise .ibe := by
  rw [step_eq_fetchExecute hint, State.fetchExecute, hfetch]

/-! ### The statements -/

/-- Settles O9: the hypothesis is the bits of `State.interruptPending`, the test that a step makes first. -/
theorem interruptTaken : Obligations.InterruptTaken := by
  unfold Obligations.InterruptTaken
  intro s
  rw [← interruptPending_iff]
  refine ⟨fun hint => ?_, fun hnone => step_eq_fetchExecute (Bool.eq_false_iff.2 hnone)⟩
  rw [step_of_interruptPending hint]
  exact raise_enters s.beginStep .int

/-- Settles O11: the fetch is a bus error, so the step is trap entry with IBE. -/
theorem fetchBusError : Obligations.FetchBusError := by
  unfold Obligations.FetchBusError
  intro s hint haligned hlimit hserved
  rw [step_of_fetch_busError hint (fetch_busError haligned hlimit hserved)]
  exact raise_enters s.beginStep .ibe

/-- Settles O22: the nine codes without an address are `State.raise`, the two address errors `State.raiseAddress`. -/
theorem trapEntry : Obligations.TrapEntry := by
  unfold Obligations.TrapEntry
  intro s a
  exact ⟨raise_enters s .int, raiseAddress_enters s .adel a, raiseAddress_enters s .ades a, raise_enters s .ibe,
    raise_enters s .dbe, raise_enters s .sys, raise_enters s .bp, raise_enters s .ri, raise_enters s .cpu,
    raise_enters s .ov, raise_enters s .tr⟩

end Sys2Proof.Machine
end

section
/-! The decoder as the inverse of the encoder (R116), and the words that the rules print as examples. -/

namespace Sys2Proof.Machine

/-- Settles O1: the encoder writes the selector and the operands, and the decoder's maps read them back. -/
theorem everyInstructionDecodes : Obligations.EveryInstructionDecodes := by
  unfold Obligations.EveryInstructionDecodes
  exact decode_encode

/-- Settles O2: in each branch of the maps the selector is fixed, the operands are fields of the word, and what is left
has been tested to be zero, so the encoder puts the same word together. -/
theorem everyDecodedWordIsAnEncoding : Obligations.EveryDecodedWordIsAnEncoding := by
  unfold Obligations.EveryDecodedWordIsAnEncoding
  exact fun w i hdecode => encode_of_decode i hdecode

/-- Settles O5: a word decodes to what it encodes, and the encoder gives each of the eleven words. -/
theorem writtenOutWordsDecode : Obligations.WrittenOutWordsDecode := by
  unfold Obligations.WrittenOutWordsDecode
  simp only [decode_eq_instr_iff]
  decide

end Sys2Proof.Machine
end

section
/-! General registers and memory: register 0 (R21), and the big-endian reads and writes of memory (R62 to R64). -/

namespace Sys2Proof.Machine

/-! ### Register 0 -/

theorem setX_zero (s : State) (v : Word) : s.setX 0#5 v = s := rfl

theorem exec_add (rd rs rt : RegNum) (s : State) :
    exec (.add rd rs rt) s =
      overflowing rd (if overflows ((s.x rs).toInt + (s.x rt).toInt) then none
        else some (BitVec.ofInt 32 ((s.x rs).toInt + (s.x rt).toInt))) s := rfl

/-- An addition into register 0 that does not overflow retires the state as it is. -/
theorem exec_add_zero {s : State} {rs rt : RegNum} (hfits : ¬ overflows ((s.x rs).toInt + (s.x rt).toInt) = true) :
    exec (.add 0#5 rs rt) s = retire s := by
  rw [exec_add, if_neg hfits]
  rfl

/-- Settles O17: a write to register 0 is no write, and Ov is raised before anything is written. -/
theorem registerZero : Obligations.RegisterZero := by
  unfold Obligations.RegisterZero
  intro s n m rs rt v
  obtain ⟨-, hoverflow⟩ := completes_overflowing (exec_add 0#5 rs rt s)
  refine ⟨x_zero s, ?_, setX_zero s v, hoverflow, fun hlow hhigh => ?_⟩
  · rw [x_setX]
    by_cases hm : m = n
    · simp [hm]
    · simp [hm]
  · refine completes_retire (exec_add_zero ?_) (changesNothing_advance s)
    rw [overflows_iff]
    omega

/-! ### Memory -/

/-- The first of the bytes that have become so is the one at the address itself. -/
theorem bytesBecome_byte_zero {s t : State} {a : Word} {b : Byte} {bytes : List Byte}
    (h : bytesBecome s t a (b :: bytes)) : t.byte a = b := by
  obtain ⟨hbytes, -⟩ := h
  simpa using hbytes 0 (Nat.zero_lt_succ _)

theorem wordAt_of_bytesBecome {s t : State} {a w : Word} (h : bytesBecome s t a (bytesOf w)) : wordAt t a = w := by
  have hfirst : t.byte a = byteOfWord w 0 := bytesBecome_byte_zero h
  obtain ⟨hbytes, -⟩ := h
  have hsecond : t.byte (a + 1#32) = byteOfWord w 1 := hbytes 1 (by decide : 1 < 4)
  have hthird : t.byte (a + 2#32) = byteOfWord w 2 := hbytes 2 (by decide : 2 < 4)
  have hfourth : t.byte (a + 3#32) = byteOfWord w 3 := hbytes 3 (by decide : 3 < 4)
  rw [wordAt, hfirst, hsecond, hthird, hfourth]
  exact wordOfBytes_bytes w

/-- The two bytes of the low half of a value, the more significant first, make that half. -/
theorem low_bytes_append {n : Nat} (v : BitVec n) : v.extractLsb' 8 8 ++ v.extractLsb' 0 8 = v.extractLsb' 0 16 :=
  BitVec.extractLsb'_append_extractLsb'_eq_extractLsb' (by decide)

/-- Settles O18: a write stores the bytes of the value from the most significant on, and a read puts the bytes at rising
addresses together in the same order. -/
theorem memoryIsBigEndian : Obligations.MemoryIsBigEndian := by
  unfold Obligations.MemoryIsBigEndian
  intro s a b h w
  have hwrite8 : bytesBecome s (s.write8 a b) a [b] := bytesBecome_storeBytes s a [b] (by decide : 1 ≤ 2 ^ 32)
  have hwrite16 : bytesBecome s (s.write16 a h) a [h.extractLsb' 8 8, h.extractLsb' 0 8] :=
    bytesBecome_storeBytes s a _ (by decide : 2 ≤ 2 ^ 32)
  have hwrite32 : bytesBecome s (s.write32 a w) a (bytesOf w) :=
    bytesBecome_storeBytes s a _ (by decide : 4 ≤ 2 ^ 32)
  refine ⟨rfl, rfl, rfl, hwrite8, hwrite16, hwrite32, wordAt_of_bytesBecome hwrite32, ?_,
    bytesBecome_byte_zero hwrite32, ?_⟩
  · have hhigh := bytesBecome_byte_zero hwrite16
    obtain ⟨hbytes, -⟩ := hwrite16
    have hlow : (s.write16 a h).byte (a + 1#32) = h.extractLsb' 0 8 := hbytes 1 (by decide : 1 < 2)
    rw [State.read16, hhigh, hlow, low_bytes_append, extract_all]
  · obtain ⟨hbytes, -⟩ := hwrite32
    have hhigh : (s.write32 a w).byte (a + 2#32) = w.extractLsb' 8 8 := hbytes 2 (by decide : 2 < 4)
    have hlow : (s.write32 a w).byte (a + 3#32) = w.extractLsb' 0 8 := hbytes 3 (by decide : 3 < 4)
    have hnext : a + 2#32 + 1#32 = a + 3#32 := by rw [BitVec.add_assoc]; rfl
    rw [State.read16, hnext, hhigh, hlow, low_bytes_append]

end Sys2Proof.Machine
end

section
/-! What the platform does before a step (R78, R82, R398), and the exceptions of a step with EL set (R401). -/

namespace Sys2Proof.Machine

/-! ### The writes of another agent -/

@[simp] theorem externalWrite_plat (s : State) (a : Word) (b : Byte) : (s.externalWrite a b).plat = s.plat := by
  obtain ⟨m, l, k, h⟩ := externalWrite_frame s a b
  rw [h]

@[simp] theorem externalWrite_llAddr (s : State) (a : Word) (b : Byte) : (s.externalWrite a b).llAddr = s.llAddr := by
  obtain ⟨m, l, k, h⟩ := externalWrite_frame s a b
  rw [h]

@[simp] theorem externalWrites_cause (s : State) (writes : List (Word × Byte)) :
    (s.externalWrites writes).cause = s.cause := by
  obtain ⟨m, l, k, h⟩ := externalWrites_frame s writes
  rw [h]

theorem externalWrites_cons (s : State) (w : Word × Byte) (rest : List (Word × Byte)) :
    s.externalWrites (w :: rest) = (s.externalWrite w.1 w.2).externalWrites rest := rfl

theorem byte_of_mem_store {s t : State} {a : Word} {b : Byte} (h : t.mem = Memory.store s.mem a.toNat b) (c : Word) :
    t.byte c = if a = c then b else s.byte c := by
  rw [State.byte, h]
  by_cases hc : a = c
  · simp [hc]
  · rw [if_neg hc, lookup_store_other _ _ fun heq => hc (BitVec.eq_of_toNat_eq heq.symm), State.byte]

theorem byte_externalWrite (s : State) (a c : Word) (b : Byte) :
    (s.externalWrite a b).byte c = if decide (a = c) && mappedByte s.plat c then b else s.byte c := by
  cases hmapped : mappedByte s.plat a with
  | true =>
    rw [byte_of_mem_store (congrArg State.mem (externalWrite_mapped hmapped b))]
    by_cases hc : a = c
    · simp [← hc, hmapped]
    · simp [hc]
  | false =>
    rw [externalWrite_unmapped hmapped]
    by_cases hc : a = c
    · simp [← hc, hmapped]
    · simp [hc]

/-- Of several writes to one byte the last one stays. -/
theorem byte_externalWrites (s : State) (writes : List (Word × Byte)) (a : Word) :
    (s.externalWrites writes).byte a =
      ((writes.reverse.find? (fun w => decide (w.1 = a) && mappedByte s.plat a)).map Prod.snd).getD (s.byte a) := by
  induction writes generalizing s with
  | nil => rfl
  | cons w rest ih =>
    rw [externalWrites_cons, ih, externalWrite_plat, List.reverse_cons, List.find?_append, byte_externalWrite]
    cases rest.reverse.find? (fun w => decide (w.1 = a) && mappedByte s.plat a) with
    | some last => rfl
    | none => cases hw : decide (w.1 = a) && mappedByte s.plat a <;> simp [List.find?, hw]

/-- The write lies in no byte of the linked word that another agent may write (R82; log entry 24). -/
def missesLink (s : State) (a : Word) : Prop :=
  mappedByte s.plat a = true → a &&& ~~~3#32 ≠ s.llAddr &&& ~~~3#32

theorem externalWrite_link (s : State) (a : Word) (b : Byte) :
    ((s.externalWrite a b).llBit = true ↔ s.llBit = true ∧ missesLink s a) ∧
    ((s.externalWrite a b).llTouched = true ↔ s.llTouched = true ∧ missesLink s a) := by
  cases hmapped : mappedByte s.plat a with
  | true =>
    have hmisses : missesLink s a ↔ sameWord a s.llAddr = false := by
      rw [missesLink, Ne, ← sameWord_iff, Bool.not_eq_true]
      exact ⟨fun h => h hmapped, fun h _ => h⟩
    simp [externalWrite_mapped hmapped, hmisses]
  | false => simp [externalWrite_unmapped hmapped, missesLink, hmapped]

theorem externalWrites_link_iff (s : State) (writes : List (Word × Byte)) :
    ((s.externalWrites writes).llBit = true ↔ s.llBit = true ∧ ∀ w ∈ writes, missesLink s w.1) ∧
    ((s.externalWrites writes).llTouched = true ↔ s.llTouched = true ∧ ∀ w ∈ writes, missesLink s w.1) := by
  induction writes generalizing s with
  | nil => simp [State.externalWrites]
  | cons w rest ih =>
    have hsame (a : Word) : missesLink (s.externalWrite w.1 w.2) a ↔ missesLink s a := by simp [missesLink]
    obtain ⟨hbit, htouched⟩ := ih (s.externalWrite w.1 w.2)
    obtain ⟨hbit', htouched'⟩ := externalWrite_link s w.1 w.2
    rw [externalWrites_cons, hbit, htouched, hbit', htouched']
    simp only [hsame, List.forall_mem_cons, and_assoc, and_self]

/-! ### What stands before a step -/

theorem beginStep_nil {s : State} (h : s.inputs = []) : s.beginStep = { s with time := s.time + 1 } := by
  simp only [State.beginStep, h]

/-- The state in which the step is counted and the lines are those of the input (R398). -/
def State.withInput (s : State) (i : PlatformInput) (rest : List PlatformInput) : State :=
  { s with time := s.time + 1, inputs := rest, cause := causeWithLines s.cause i.intLines }

theorem beginStep_cons {s : State} {i : PlatformInput} {rest : List PlatformInput} (h : s.inputs = i :: rest) :
    s.beginStep = (s.withInput i rest).externalWrites i.writes := by
  simp only [State.beginStep, h, State.withInput]

/-- Settles O8: with an input, what stands before a step is the change of the lines and then the list of writes. -/
theorem beforeEachStep : Obligations.BeforeEachStep := by
  unfold Obligations.BeforeEachStep
  intro s
  refine ⟨beginStep_nil, fun i rest hinputs => ?_⟩
  obtain ⟨hbit, htouched⟩ := externalWrites_link_iff (s.withInput i rest) i.writes
  rw [beginStep_cons hinputs]
  refine ⟨?_, fun k hk => ?_, fun k hk => ?_, byte_externalWrites (s.withInput i rest) i.writes, hbit, htouched⟩
  · obtain ⟨m, l, k, hframe⟩ := externalWrites_frame (s.withInput i rest) i.writes
    rw [hframe]
    rfl
  · rw [externalWrites_cause]
    show (causeWithLines s.cause i.intLines).getLsbD (10 + k) = _
    rw [causeWithLines_getLsbD _ _ _ (by omega), if_pos (by omega), Nat.add_sub_cancel_left]
  · rw [externalWrites_cause]
    show (causeWithLines s.cause i.intLines).getLsbD k = _
    by_cases hrange : k < 32
    · rw [causeWithLines_getLsbD _ _ _ hrange, if_neg (by omega)]
    · rw [BitVec.getLsbD_of_ge _ _ (by omega), BitVec.getLsbD_of_ge _ _ (by omega)]

/-! ### EL set -/

@[simp] theorem beginStep_status (s : State) : s.beginStep.status = s.status := by
  obtain ⟨m, l, k, c, h⟩ := beginStep_frame s
  rw [h]

theorem interruptPending_of_el {s : State} (hel : s.status.getLsbD 1 = true) : s.interruptPending = false := by
  rw [Bool.eq_false_iff, Ne, interruptPending_iff]
  rintro ⟨-, hclear, -⟩
  rw [hel] at hclear
  cases hclear

/-- A bit that is set already is set again without effect. -/
theorem or_el_of_el {w : Word} (hel : w.getLsbD 1 = true) : w ||| 2#32 = w := by
  refine BitVec.eq_of_getLsbD_eq fun k hk => ?_
  have hbit : (2#32).getLsbD k = decide (k = 1) := by
    revert k
    decide
  rw [BitVec.getLsbD_or, hbit]
  by_cases hk1 : k = 1
  · rw [hk1, hel]
    rfl
  · simp [hk1]

/-- Settles O23: an interrupt needs EL clear, and trap entry reads EL before it sets it. -/
theorem nestedException : Obligations.NestedException := by
  unfold Obligations.NestedException
  intro s hel
  refine ⟨step_eq_fetchExecute (interruptPending_of_el ((congrArg (·.getLsbD 1) (beginStep_status s)).trans hel)),
    fun c v => ?_⟩
  have hset : s.el = true := hel
  obtain ⟨hepc, hbd, hcode, -, -, -, hstatus, hpc, -⟩ := enters_trapEntry s c v
  rw [if_pos hset] at hepc hbd
  exact ⟨hepc, hbd, hcode, hstatus.trans (or_el_of_el hel), rfl, hpc⟩

end Sys2Proof.Machine
end

section
/-! What an instruction leaves alone, over all instructions: the shapes in which it can end, whichever it is, and from
them the writers of HI, LO and FPcond, of memory, of the control registers in user mode, and of the link. -/

namespace Sys2Proof.Machine

/-! ### The shapes in which an instruction ends -/

/-- Everything an instruction can do, whichever it is, by what it writes. -/
inductive Ends (s t : State) : Prop
  | plain (h : Plain s t)
  | trapped (h : Trapped s t)
  | hiLo (hi lo : Word) (h : t = ((s.setHi hi).setLo lo).advance)
  | fpcond (b : Bool) (h : t = (s.setFpcond b).advance)
  | stored (h : Stored s t)
  | linked (rt : RegNum) (v a : Word) (haligned : a &&& 3#32 = 0#32) (h : t = ((s.setX rt v).setLink a).advance)
  | conditional (a : Word) (l : List Byte) (rt : RegNum) (v : Word)
      (h : t = (((s.storeBytes a l).setX rt v).clearLink).advance)
  | returned (hmode : s.userMode = false) (h : t = s.exceptionReturn)
  | status (hmode : s.userMode = false) (v : Word)
      (h : t = { s with status := writeMasked statusMask s.status v }.advance)
  | cause (hmode : s.userMode = false) (v : Word)
      (h : t = { s with cause := writeMasked causeMask s.cause v }.advance)
  | epc (hmode : s.userMode = false) (v : Word) (h : t = { s with epc := v }.advance)

theorem exec_ends {i : Instr} {s t : State} (h : exec i s = .next t) : Ends s t := by
  have heffect := exec_effect h
  cases i
  case mult | multu | div | divu =>
    obtain ⟨hi, lo, ht⟩ := heffect
    exact .hiLo hi lo ht
  case mthi =>
    obtain ⟨hi, ht⟩ := heffect
    exact .hiLo hi s.lo ht
  case mtlo =>
    obtain ⟨lo, ht⟩ := heffect
    exact .hiLo s.hi lo ht
  case cFS | cFD | cUnS | cUnD | cEqS | cEqD | cUeqS | cUeqD | cOltS | cOltD | cUltS | cUltD | cOleS | cOleD | cUleS |
      cUleD | cSfS | cSfD | cNgleS | cNgleD | cSeqS | cSeqD | cNglS | cNglD | cLtS | cLtD | cNgeS | cNgeD | cLeS |
      cLeD | cNgtS | cNgtD =>
    obtain ⟨b, ht⟩ := heffect
    exact .fpcond b ht
  case sb | sh | sw | swl | swr | swc1 | sdc1 => exact heffect.elim .trapped .stored
  case ll =>
    obtain htrap | ⟨v, a, haligned, ht⟩ := heffect
    · exact .trapped htrap
    · exact .linked _ v a haligned ht
  case sc =>
    obtain htrap | ⟨a, l, v, ht⟩ := heffect
    · exact .trapped htrap
    · exact .conditional a l _ v ht
  case eret =>
    obtain ⟨-, htrap⟩ | ⟨hmode, -, ht⟩ := heffect
    · exact .trapped htrap
    · exact .returned hmode ht
  case mtc0 =>
    obtain ⟨-, htrap⟩ | ⟨hmode, ht | ⟨v, ht⟩ | ⟨v, ht⟩ | ⟨v, ht⟩⟩ := heffect
    · exact .trapped htrap
    · exact .plain (ht ▸ plain_advance s)
    · exact .status hmode v ht
    · exact .cause hmode v ht
    · exact .epc hmode v ht
  all_goals exact heffect.elim .plain .trapped

/-! ### The frames of the shapes -/

/-- HI, LO, FPcond, memory, the link and what the model holds of the platform are as before. -/
def KeepsData (s t : State) : Prop :=
  t = { s with
    gpr := t.gpr, fpr := t.fpr, pc := t.pc, npc := t.npc, inDs := t.inDs, status := t.status, cause := t.cause,
    epc := t.epc, badVAddr := t.badVAddr }

/-- Only memory and what the model records of a store may differ, and the program counters. -/
def KeepsAllButMemory (s t : State) : Prop :=
  t = { s with
    mem := t.mem, stored := t.stored, llTouched := t.llTouched, pc := t.pc, npc := t.npc, inDs := t.inDs }

theorem keepsData_of_trapped {s t : State} (h : Trapped s t) : KeepsData s t := by
  obtain ⟨c, v, rfl⟩ := h
  rfl

theorem keepsData_of_plain {s t : State} (h : Plain s t) : KeepsData s t := by
  obtain ⟨g, f, p, n, d, rfl, -⟩ := h
  rfl

theorem keepsData_of_default {s t : State} (h : Plain s t ∨ Trapped s t) : KeepsData s t :=
  h.elim keepsData_of_plain keepsData_of_trapped

theorem keepsAllButMemory_of_stored {s t : State} (h : Stored s t) : KeepsAllButMemory s t := by
  obtain ⟨a, l, rfl⟩ := h
  rw [KeepsAllButMemory, storeBytes_frame]
  rfl

theorem keepsData_of_mtc0 {rt rd : RegNum} {s t : State} (h : Effect (.mtc0 rt rd) s t) : KeepsData s t := by
  obtain ⟨-, htrap⟩ | ⟨-, rfl | ⟨v, rfl⟩ | ⟨v, rfl⟩ | ⟨v, rfl⟩⟩ := h
  · exact keepsData_of_trapped htrap
  all_goals rfl

/-! ### HI, LO and FPcond -/

/-- HI, LO and FPcond are as before. -/
def KeepsHiLoFpcond (s t : State) : Prop := t.hi = s.hi ∧ t.lo = s.lo ∧ t.fpcond = s.fpcond

theorem KeepsData.hiLoFpcond {s t : State} (h : KeepsData s t) : KeepsHiLoFpcond s t :=
  ⟨(congrArg State.hi h :), (congrArg State.lo h :), (congrArg State.fpcond h :)⟩

theorem KeepsAllButMemory.hiLoFpcond {s t : State} (h : KeepsAllButMemory s t) : KeepsHiLoFpcond s t :=
  ⟨(congrArg State.hi h :), (congrArg State.lo h :), (congrArg State.fpcond h :)⟩

theorem keepsHiLoFpcond_storeBytes (s : State) (a : Word) (l : List Byte) : KeepsHiLoFpcond s (s.storeBytes a l) :=
  (keepsAllButMemory_of_stored ⟨a, l, rfl⟩).hiLoFpcond

/-- Settles O19: by the effect of each instruction. The writers are those of `Effect` that end in `State.setHi`,
`State.setLo` or `State.setFpcond`. -/
theorem hiLoAndFpcondWriters : Obligations.HiLoAndFpcondWriters := by
  unfold Obligations.HiLoAndFpcondWriters
  intro i s t h
  have heffect := exec_effect h
  cases i
  case mult | multu | div | divu =>
    obtain ⟨hi, lo, rfl⟩ := heffect
    exact ⟨trivial, trivial, rfl⟩
  case mthi =>
    obtain ⟨v, rfl⟩ := heffect
    exact ⟨trivial, rfl, rfl⟩
  case mtlo =>
    obtain ⟨v, rfl⟩ := heffect
    exact ⟨rfl, trivial, rfl⟩
  case cFS | cFD | cUnS | cUnD | cEqS | cEqD | cUeqS | cUeqD | cOltS | cOltD | cUltS | cUltD | cOleS | cOleD | cUleS |
      cUleD | cSfS | cSfD | cNgleS | cNgleD | cSeqS | cSeqD | cNglS | cNglD | cLtS | cLtD | cNgeS | cNgeD | cLeS |
      cLeD | cNgtS | cNgtD =>
    obtain ⟨b, rfl⟩ := heffect
    exact ⟨rfl, rfl, trivial⟩
  case sb | sh | sw | swl | swr | swc1 | sdc1 =>
    obtain htrap | hstored := heffect
    · exact (keepsData_of_trapped htrap).hiLoFpcond
    · exact (keepsAllButMemory_of_stored hstored).hiLoFpcond
  case ll =>
    obtain htrap | ⟨v, a, -, rfl⟩ := heffect
    · exact (keepsData_of_trapped htrap).hiLoFpcond
    · exact ⟨rfl, rfl, rfl⟩
  case sc =>
    obtain htrap | ⟨a, l, v, rfl⟩ := heffect
    · exact (keepsData_of_trapped htrap).hiLoFpcond
    · exact keepsHiLoFpcond_storeBytes s a l
  case eret =>
    obtain ⟨-, htrap⟩ | ⟨-, -, rfl⟩ := heffect
    · exact (keepsData_of_trapped htrap).hiLoFpcond
    · exact ⟨rfl, rfl, rfl⟩
  case mtc0 => exact (keepsData_of_mtc0 heffect).hiLoFpcond
  all_goals exact (keepsData_of_default heffect).hiLoFpcond

/-! ### The platform -/

/-- The platform's parameters, its coming inputs and the step count are as before. -/
def KeepsPlatform (s t : State) : Prop := t.plat = s.plat ∧ t.inputs = s.inputs ∧ t.time = s.time

theorem KeepsData.platform {s t : State} (h : KeepsData s t) : KeepsPlatform s t :=
  ⟨(congrArg State.plat h :), (congrArg State.inputs h :), (congrArg State.time h :)⟩

theorem KeepsAllButMemory.platform {s t : State} (h : KeepsAllButMemory s t) : KeepsPlatform s t :=
  ⟨(congrArg State.plat h :), (congrArg State.inputs h :), (congrArg State.time h :)⟩

/-- No instruction writes what the model holds of the platform. -/
theorem Ends.platform {s t : State} (h : Ends s t) : KeepsPlatform s t := by
  cases h
  case plain h => exact (keepsData_of_plain h).platform
  case trapped h => exact (keepsData_of_trapped h).platform
  case stored h => exact (keepsAllButMemory_of_stored h).platform
  case conditional a l rt v h =>
    subst h
    exact (keepsAllButMemory_of_stored (t := (s.storeBytes a l).advance) ⟨a, l, rfl⟩).platform
  all_goals
    subst t
    exact ⟨rfl, rfl, rfl⟩

/-! ### The control registers in user mode -/

/-- Status, Cause, EPC and BadVAddr are as before. -/
def KeepsControl (s t : State) : Prop :=
  t.status = s.status ∧ t.cause = s.cause ∧ t.epc = s.epc ∧ t.badVAddr = s.badVAddr

theorem KeepsAllButMemory.control {s t : State} (h : KeepsAllButMemory s t) : KeepsControl s t :=
  ⟨(congrArg State.status h :), (congrArg State.cause h :), (congrArg State.epc h :), (congrArg State.badVAddr h :)⟩

/-- Outside kernel mode only an exception writes a control register. -/
theorem Ends.keepsControl_or_trapped {s t : State} (h : Ends s t) (huser : s.userMode = true) :
    KeepsControl s t ∨ Trapped s t := by
  have hkernel {p : Prop} (hmode : s.userMode = false) : p := by simp [huser] at hmode
  cases h
  case trapped h => exact .inr h
  case plain h =>
    obtain ⟨g, f, p, n, d, rfl, -⟩ := h
    exact .inl ⟨rfl, rfl, rfl, rfl⟩
  case stored h => exact .inl (keepsAllButMemory_of_stored h).control
  case conditional a l rt v h =>
    subst h
    exact .inl (keepsAllButMemory_of_stored (t := (s.storeBytes a l).advance) ⟨a, l, rfl⟩).control
  case returned hmode _ => exact hkernel hmode
  case status hmode _ _ => exact hkernel hmode
  case cause hmode _ _ => exact hkernel hmode
  case epc hmode _ _ => exact hkernel hmode
  all_goals
    subst t
    exact .inl ⟨rfl, rfl, rfl, rfl⟩

/-- Settles O21: an instruction that does not raise an exception writes control registers in kernel mode only, and trap
entry in user mode finds EL clear. -/
theorem userModeRaisesPrivilegeOnlyByException : Obligations.UserModeRaisesPrivilegeOnlyByException := by
  unfold Obligations.UserModeRaisesPrivilegeOnlyByException
  intro i s t huser h
  obtain hkeeps | ⟨c, v, rfl⟩ := (exec_ends h).keepsControl_or_trapped ((userMode_iff s).2 huser)
  · exact .inl hkeeps
  · have hel : s.el = false := huser.2
    obtain ⟨hepc, -, -, -, -, -, hstatus, hpc, hnpc, hslot, -⟩ := enters_trapEntry s c v
    exact .inr ⟨hpc, hnpc, hslot, hstatus, by rw [hepc, hel, if_neg Bool.false_ne_true]⟩

/-! ### Memory and the link -/

/-- The link is as before. -/
def KeepsLink (s t : State) : Prop := t.llBit = s.llBit ∧ t.llAddr = s.llAddr

/-- Memory and the record of stored bytes are as before. -/
def KeepsMemory (s t : State) : Prop := t.mem = s.mem ∧ t.stored = s.stored

theorem KeepsData.link {s t : State} (h : KeepsData s t) : KeepsLink s t :=
  ⟨(congrArg State.llBit h :), (congrArg State.llAddr h :)⟩

theorem KeepsData.memory {s t : State} (h : KeepsData s t) : KeepsMemory s t :=
  ⟨(congrArg State.mem h :), (congrArg State.stored h :)⟩

theorem KeepsAllButMemory.link {s t : State} (h : KeepsAllButMemory s t) : KeepsLink s t :=
  ⟨(congrArg State.llBit h :), (congrArg State.llAddr h :)⟩

/-- ll, sc and eret apart, every instruction leaves the link, and every one that is no store memory. -/
theorem exec_keepsMemory_keepsLink {i : Instr} {s t : State} (h : exec i s = .next t) :
    match i with
    | .ll _ _ _ | .sc _ _ _ | .eret => True
    | .sb _ _ _ | .sh _ _ _ | .sw _ _ _ | .swl _ _ _ | .swr _ _ _ | .swc1 _ _ _ | .sdc1 _ _ _ => KeepsLink s t
    | _ => KeepsMemory s t ∧ KeepsLink s t := by
  have heffect := exec_effect h
  cases i
  case ll | sc | eret => trivial
  case sb | sh | sw | swl | swr | swc1 | sdc1 =>
    obtain htrap | hstored := heffect
    · exact (keepsData_of_trapped htrap).link
    · exact (keepsAllButMemory_of_stored hstored).link
  case mult | multu | div | divu =>
    obtain ⟨hi, lo, rfl⟩ := heffect
    exact ⟨⟨rfl, rfl⟩, ⟨rfl, rfl⟩⟩
  case mthi | mtlo | cFS | cFD | cUnS | cUnD | cEqS | cEqD | cUeqS | cUeqD | cOltS | cOltD | cUltS | cUltD | cOleS |
      cOleD | cUleS | cUleD | cSfS | cSfD | cNgleS | cNgleD | cSeqS | cSeqD | cNglS | cNglD | cLtS | cLtD | cNgeS |
      cNgeD | cLeS | cLeD | cNgtS | cNgtD =>
    obtain ⟨v, rfl⟩ := heffect
    exact ⟨⟨rfl, rfl⟩, ⟨rfl, rfl⟩⟩
  case mtc0 => exact ⟨(keepsData_of_mtc0 heffect).memory, (keepsData_of_mtc0 heffect).link⟩
  all_goals exact ⟨(keepsData_of_default heffect).memory, (keepsData_of_default heffect).link⟩

theorem ll_keepsMemory {s t : State} {rt rs : RegNum} {imm : Half} (h : exec (.ll rt rs imm) s = .next t) :
    KeepsMemory s t := by
  obtain htrap | ⟨v, a, -, rfl⟩ := exec_effect h
  · exact (keepsData_of_trapped htrap).memory
  · exact ⟨rfl, rfl⟩

theorem eret_keepsMemory {s t : State} (h : exec .eret s = .next t) : KeepsMemory s t := by
  obtain ⟨-, htrap⟩ | ⟨-, -, rfl⟩ := exec_effect h
  · exact (keepsData_of_trapped htrap).memory
  · exact ⟨rfl, rfl⟩

/-- Settles O20: the eight stores apart, memory is kept by every instruction; what the model holds of the platform by
all of them. -/
theorem memoryWriters : Obligations.MemoryWriters := by
  unfold Obligations.MemoryWriters
  intro i s t h
  refine ⟨?_, (exec_ends h).platform⟩
  have hkeeps := exec_keepsMemory_keepsLink h
  cases i
  case sb | sh | sw | swl | swr | sc | swc1 | sdc1 => trivial
  case ll => exact ll_keepsMemory h
  case eret => exact eret_keepsMemory h
  all_goals exact hkeeps.1

/-- A data access whose checks fail is an exception. -/
theorem trapped_of_not_accessOk {s t : State} {kind : AccessKind} {align : Nat} {a first : Word} {n : Nat}
    {run : Result} (h : s.access kind align a first n run = .next t) (hfail : ¬ accessOk s kind align a first n) :
    Trapped s t := by
  obtain ⟨hok, -⟩ | ⟨-, ht⟩ | ⟨-, ht⟩ := access_next h
  · exact absurd hok hfail
  · exact ⟨_, _, ht⟩
  · exact ⟨_, _, ht⟩

/-- What ll does to the link, by its checks (R80). -/
theorem ll_link {s t : State} {rt rs : RegNum} {imm : Half} {a : Word} (ha : a = s.x rs + imm.signExtend 32)
    (h : exec (.ll rt rs imm) s = .next t) :
    (accessOk s .load 4 a a 4 → t.llBit = true ∧ t.llAddr = a) ∧ (¬ accessOk s .load 4 a a 4 → KeepsLink s t) := by
  have haccess : s.access .load 4 a a 4 (retire ((s.setX rt (s.read32 a)).setLink a)) = .next t := ha ▸ h
  refine ⟨fun hok => ?_, fun hfail => (keepsData_of_trapped (trapped_of_not_accessOk haccess hfail)).link⟩
  rw [access_ok hok, retire_next] at haccess
  subst haccess
  exact ⟨rfl, rfl⟩

/-- sc clears the link, but for an exception, which leaves it (R81, R82). -/
theorem sc_link {s t : State} {rt rs : RegNum} {imm : Half} (h : exec (.sc rt rs imm) s = .next t) :
    t.llAddr = s.llAddr ∧ (t.llBit = false ∨ (t.llBit = s.llBit ∧ t.pc = s.plat.excVector)) := by
  obtain ⟨c, v, rfl⟩ | ⟨a, l, v, rfl⟩ := exec_effect h
  · exact ⟨rfl, .inr ⟨rfl, rfl⟩⟩
  · have hlink : KeepsLink s (s.storeBytes a l).advance := (keepsAllButMemory_of_stored ⟨a, l, rfl⟩).link
    exact ⟨hlink.2, .inl rfl⟩

/-- eret clears the link in kernel mode; in user mode it is CpU (R82, R332). -/
theorem eret_link {s t : State} (h : exec .eret s = .next t) :
    t.llAddr = s.llAddr ∧ (¬ inUserMode s → t.llBit = false) ∧ (inUserMode s → t.llBit = s.llBit) := by
  simp only [← userMode_iff]
  obtain ⟨hmode, c, v, rfl⟩ | ⟨hmode, -, rfl⟩ := exec_effect h
  · exact ⟨rfl, fun hkernel => absurd hmode hkernel, fun _ => rfl⟩
  · exact ⟨rfl, fun _ => rfl, fun huser => by simp [hmode] at huser⟩

/-- A write of another agent to a mapped byte clears the link exactly when it lies in the linked word (R78, R82). -/
theorem externalWrite_llBit {s : State} {a : Word} (hmapped : mappedByte s.plat a = true) (b : Byte) :
    (s.externalWrite a b).llBit = true ↔ s.llBit = true ∧ a &&& ~~~3#32 ≠ s.llAddr &&& ~~~3#32 := by
  rw [(externalWrite_link s a b).1, missesLink, forall_prop_of_true hmapped]

/-- After an own store into the linked word the draw alone decides (R82; log entry 15). -/
theorem scDrawnFailure_of_touched {s : State} (htouched : s.llTouched = true) :
    s.scDrawnFailure = Config.scFails s.time := by
  simp [State.scDrawnFailure, htouched]

/-- Settles O43: ll, sc and eret have a law of their own, every other instruction leaves the link; past the checks an sc
after an own store into the linked word is `State.storeConditional` with its outcome left to the draw. -/
theorem whatClearsTheLink : Obligations.WhatClearsTheLink := by
  unfold Obligations.WhatClearsTheLink
  refine ⟨fun i s t h => ?_, fun s a b => ⟨fun hmapped => ?_, fun hunmapped => externalWrite_unmapped hunmapped b⟩, rfl,
    fun s rt rs imm a ha hok hset hlink htouched => ?_⟩
  · have hkeeps := exec_keepsMemory_keepsLink h
    cases i
    case ll => exact ll_link rfl h
    case sc => exact sc_link h
    case eret => exact eret_link h
    case sb | sh | sw | swl | swr | swc1 | sdc1 => exact hkeeps
    all_goals exact hkeeps.2
  · exact ⟨externalWrite_llAddr s a b, externalWrite_llBit hmapped b⟩
  · have hexec : exec (.sc rt rs imm) s = s.access .store 4 a a 4 (s.storeConditional rt a) := by
      subst ha
      rfl
    refine ⟨_, _, storesConditionally_write32 s rt a (s.x rt), storesNothing_clearLink s rt, ?_⟩
    rw [hexec, access_ok hok, storeConditional_linked hset hlink, scDrawnFailure_of_touched htouched]
    rfl

end Sys2Proof.Machine
end

section
/-! The machine's invariant: it holds after reset, and each operation that a step is made of keeps it. -/

namespace Sys2Proof.Machine

/-! ### The unnamed bits of Status and Cause (R35, R36) -/

/-- Bits of a word are zero under a mask when they are those of a word that is zero there. -/
theorem and_eq_zero_of_bits {w w' mask : Word} (hzero : w' &&& mask = 0#32)
    (hsame : ∀ k, k < 32 → mask.getLsbD k = true → w.getLsbD k = w'.getLsbD k) : w &&& mask = 0#32 := by
  rw [← hzero]
  refine BitVec.eq_of_getLsbD_eq fun k hk => ?_
  rw [BitVec.getLsbD_and, BitVec.getLsbD_and]
  cases hbit : mask.getLsbD k with
  | true => rw [hsame k hk hbit]
  | false => rw [Bool.and_false, Bool.and_false]

theorem unnamed_status_bit : ∀ k, k < 32 → (0xffff00ec#32).getLsbD k = true → (2#32).getLsbD k = false := by decide

theorem unnamed_cause_bit :
    ∀ k, k < 32 → (0x7fff0083#32).getLsbD k = true → k < 2 ∨ k = 7 ∨ 16 ≤ k ∧ k ≤ 30 := by decide

theorem statusWithEl_unnamed {w : Word} (el : Bool) (h : w &&& 0xffff00ec#32 = 0#32) :
    statusWithEl w el &&& 0xffff00ec#32 = 0#32 := by
  refine and_eq_zero_of_bits h fun k hk hunnamed => ?_
  have hbit := unnamed_status_bit k hk hunnamed
  cases el with
  | true => rw [statusWithEl_true, BitVec.getLsbD_or, hbit, Bool.or_false]
  | false =>
    rw [statusWithEl_false, BitVec.getLsbD_and, BitVec.getLsbD_not, hbit, decide_eq_true hk]
    simp

theorem causeWith_unnamed {w : Word} (bd : Bool) (code : BitVec 5) (h : w &&& 0x7fff0083#32 = 0#32) :
    causeWith w bd code &&& 0x7fff0083#32 = 0#32 := by
  refine and_eq_zero_of_bits h fun k hk hunnamed => ?_
  have hplace := unnamed_cause_bit k hk hunnamed
  rw [causeWith_getLsbD _ _ _ _ hk, if_neg (by omega), if_neg (by omega)]

theorem causeWithLines_unnamed {w : Word} (lines : BitVec 6) (h : w &&& 0x7fff0083#32 = 0#32) :
    causeWithLines w lines &&& 0x7fff0083#32 = 0#32 := by
  refine and_eq_zero_of_bits h fun k hk hunnamed => ?_
  have hplace := unnamed_cause_bit k hk hunnamed
  rw [causeWithLines_getLsbD _ _ _ hk, if_neg (by omega)]

/-- A masked write keeps the bits outside its mask. -/
theorem writeMasked_unnamed {mask unnamed w : Word} (v : Word) (hdisjoint : mask &&& unnamed = 0#32)
    (h : w &&& unnamed = 0#32) : writeMasked mask w v &&& unnamed = 0#32 := by
  refine and_eq_zero_of_bits h fun k hk hunnamed => ?_
  have houtside : mask.getLsbD k = false := by
    simpa [hunnamed] using congrArg (·.getLsbD k) hdisjoint
  rw [writeMasked, BitVec.getLsbD_or, BitVec.getLsbD_and, BitVec.getLsbD_and, BitVec.getLsbD_not, houtside,
    decide_eq_true hk]
  simp

/-! ### Each update of the state -/

theorem add_four_aligned {a : Word} (h : a &&& 3#32 = 0#32) : (a + 4#32) &&& 3#32 = 0#32 := by
  have haligned := aligned_iff.2 h
  exact aligned_iff.1 (by bv_omega)

namespace State.Inv

variable {s : State}

/-- The advance leaves a delay slot behind (R26). -/
theorem advance (h : s.Inv) : s.advance.Inv :=
  { h with
    sequential := fun _ => rfl
    slotAligned := fun hslot => nomatch hslot }

theorem setX (h : s.Inv) (n : RegNum) (v : Word) : (s.setX n v).Inv :=
  { h with zeroRegister := (gpr_setX_zero s n v).trans h.zeroRegister }

theorem setLink (h : s.Inv) {a : Word} (haligned : a &&& 3#32 = 0#32) : (s.setLink a).Inv :=
  { h with
    linkAligned := fun _ => haligned
    touchedLinked := fun _ => rfl }

theorem clearLink (h : s.Inv) : s.clearLink.Inv :=
  { h with
    linkAligned := fun hset => nomatch hset
    touchedLinked := fun htouched => nomatch htouched }

theorem setHi_setLo (h : s.Inv) (hi lo : Word) : ((s.setHi hi).setLo lo).Inv := { h with }

theorem setFpcond (h : s.Inv) (b : Bool) : (s.setFpcond b).Inv := { h with }

theorem storeBytes (h : s.Inv) (a : Word) (bytes : List Byte) : (s.storeBytes a bytes).Inv := by
  rw [storeBytes_frame]
  exact { h with
    memWf := storeBytes_wf a bytes h.memWf
    storedRising := storeBytes_stored_rising a bytes h.storedRising
    storedBounded := storeBytes_stored_bounded a bytes h.storedBounded
    touchedLinked := storeBytes_touched a bytes h.touchedLinked }

theorem writeStatus (h : s.Inv) (v : Word) : { s with status := writeMasked statusMask s.status v }.Inv :=
  { h with statusUnnamed := writeMasked_unnamed v (by decide) h.statusUnnamed }

theorem writeCause (h : s.Inv) (v : Word) : { s with cause := writeMasked causeMask s.cause v }.Inv :=
  { h with causeUnnamed := writeMasked_unnamed v (by decide) h.causeUnnamed }

theorem writeEpc (h : s.Inv) (v : Word) : { s with epc := v }.Inv := { h with }

/-- Trap entry leaves the delay slot and sets single fields of Status and Cause (R395). -/
theorem trapEntry (h : s.Inv) (c : ExcCode) (v : Option Word) : (s.trapEntry c v).Inv :=
  { h with
    statusUnnamed := statusWithEl_unnamed true h.statusUnnamed
    causeUnnamed := causeWith_unnamed _ _ h.causeUnnamed
    sequential := fun _ => rfl
    slotAligned := fun hslot => nomatch hslot }

/-- The return from an exception clears EL and the link (R332). -/
theorem exceptionReturn (h : s.Inv) : s.exceptionReturn.Inv :=
  { h with
    statusUnnamed := statusWithEl_unnamed false h.statusUnnamed
    linkAligned := fun hset => nomatch hset
    touchedLinked := fun htouched => nomatch htouched
    sequential := fun _ => rfl
    slotAligned := fun hslot => nomatch hslot }

/-- A delay slot is entered from outside one only, from an aligned pc, so its own pc, which is npc, is aligned. -/
theorem plain {t : State} (h : s.Inv) (hpc : s.pc &&& 3#32 = 0#32) (hplain : Plain s t) : t.Inv := by
  obtain ⟨g, f, p, n, d, rfl, hzero, hsequential, hslot⟩ := hplain
  exact { h with
    zeroRegister := hzero.trans h.zeroRegister
    sequential := hsequential
    slotAligned := fun hd => by
      obtain ⟨rfl, houtside⟩ := hslot hd
      show s.npc &&& 3#32 = 0#32
      rw [h.sequential houtside]
      exact add_four_aligned hpc }

/-! ### An instruction, and what stands before it -/

theorem ends {t : State} (h : s.Inv) (hpc : s.pc &&& 3#32 = 0#32) (hends : Ends s t) : t.Inv := by
  cases hends
  case plain hplain => exact h.plain hpc hplain
  case trapped htrap =>
    obtain ⟨c, v, rfl⟩ := htrap
    exact h.trapEntry c v
  case hiLo hi lo ht => exact ht ▸ (h.setHi_setLo hi lo).advance
  case fpcond b ht => exact ht ▸ (h.setFpcond b).advance
  case stored hstored =>
    obtain ⟨a, l, rfl⟩ := hstored
    exact (h.storeBytes a l).advance
  case linked rt v a haligned ht => exact ht ▸ ((h.setX rt v).setLink haligned).advance
  case conditional a l rt v ht => exact ht ▸ (((h.storeBytes a l).setX rt v).clearLink).advance
  case returned ht => exact ht ▸ h.exceptionReturn
  case status v ht => exact ht ▸ (h.writeStatus v).advance
  case cause v ht => exact ht ▸ (h.writeCause v).advance
  case epc v ht => exact ht ▸ (h.writeEpc v).advance

/-- A write of another agent clears the link and the record of an own store together (R82). -/
theorem externalWrite (h : s.Inv) (a : Word) (b : Byte) : (s.externalWrite a b).Inv := by
  obtain ⟨hbit, htouched⟩ := externalWrite_link s a b
  have hwf := externalWrite_wf a b h.memWf
  obtain ⟨m, l, k, hframe⟩ := externalWrite_frame s a b
  rw [hframe] at hbit htouched hwf ⊢
  exact { h with
    memWf := hwf
    linkAligned := fun hl => h.linkAligned (hbit.1 hl).1
    touchedLinked := fun hk => hbit.2 ⟨h.touchedLinked (htouched.1 hk).1, (htouched.1 hk).2⟩ }

theorem externalWrites (h : s.Inv) (writes : List (Word × Byte)) : (s.externalWrites writes).Inv := by
  induction writes generalizing s with
  | nil => exact h
  | cons w rest ih => exact ih (h.externalWrite w.1 w.2)

theorem beginStep (h : s.Inv) : s.beginStep.Inv := by
  cases hinputs : s.inputs with
  | nil =>
    rw [beginStep_nil hinputs]
    exact { h with }
  | cons i rest =>
    have hlines : (s.withInput i rest).Inv :=
      { h with causeUnnamed := causeWithLines_unnamed i.intLines h.causeUnnamed }
    rw [beginStep_cons hinputs]
    exact hlines.externalWrites i.writes

end State.Inv

/-- A fetch that gives a word is from an aligned pc (R67). -/
theorem pc_aligned_of_fetch_word {s : State} {w : Word} (h : s.fetch = .word w) : s.pc &&& 3#32 = 0#32 := by
  by_contra hmis
  rw [fetch_addressError (.inl (mt aligned_iff.1 hmis))] at h
  cases h

/-! ### The statements -/

/-- Settles O16: a step is an exception, or an instruction whose fetch found the pc aligned. -/
theorem everyStepKeepsTheInvariant : Obligations.EveryStepKeepsTheInvariant := by
  unfold Obligations.EveryStepKeepsTheInvariant
  intro s t hinv hstep
  have hbegin := hinv.beginStep
  obtain ⟨-, rfl⟩ | ⟨-, ⟨-, rfl⟩ | ⟨-, rfl⟩ | ⟨w, hfetch, ⟨-, rfl⟩ | ⟨i, -, hexec⟩⟩⟩ := step_next hstep
  · exact hbegin.trapEntry ..
  · exact hbegin.trapEntry ..
  · exact hbegin.trapEntry ..
  · exact hbegin.trapEntry ..
  · exact hbegin.ends (pc_aligned_of_fetch_word hfetch) (exec_ends hexec)

/-- The lines are all that reset leaves set in Cause (R43, R398). -/
theorem resetOn_cause (p : Platform) (lines : BitVec 6) :
    (State.resetOn p lines).cause = causeWithLines 0#32 lines := rfl

theorem resetOn_causeUnnamed (p : Platform) (lines : BitVec 6) :
    (State.resetOn p lines).cause &&& 0x7fff0083#32 = 0#32 := by
  rw [resetOn_cause]
  exact causeWithLines_unnamed lines BitVec.zero_and

/-- Settles O14: reset is a literal but for the lines, whose places in Cause are those of `causeWithLines`. -/
theorem resetState : Obligations.ResetState := by
  unfold Obligations.ResetState
  refine ⟨?_, rfl, rfl, rfl, rfl, rfl, rfl⟩
  rintro p lines s rfl
  refine ⟨x_zero _, rfl, rfl, rfl, rfl, ?_, ?_, resetOn_causeUnnamed p lines, rfl, rfl, rfl, rfl⟩
  · rw [resetOn_cause]
    refine BitVec.eq_of_getLsbD_eq fun k hk => ?_
    rw [BitVec.getLsbD_extractLsb', causeWithLines_getLsbD _ _ _ (by omega), if_pos (by omega), decide_eq_true hk,
      Bool.true_and, Nat.add_sub_cancel_left]
  · rw [resetOn_cause]
    refine BitVec.eq_of_getLsbD_eq fun k hk => ?_
    rw [BitVec.getLsbD_extractLsb', causeWithLines_getLsbD _ _ _ (by omega), if_neg (by omega), BitVec.getLsbD_zero,
      BitVec.getLsbD_zero, Bool.and_false]

theorem resetOn_inv (p : Platform) (lines : BitVec 6) : (State.resetOn p lines).Inv where
  memWf := reset_wf p lines
  storedRising := List.Pairwise.nil
  storedBounded := List.forall_mem_nil _
  zeroRegister := rfl
  statusUnnamed := BitVec.zero_and
  causeUnnamed := resetOn_causeUnnamed p lines
  linkAligned := fun hset => nomatch hset
  touchedLinked := fun htouched => nomatch htouched
  sequential := fun _ => rfl
  slotAligned := fun hslot => nomatch hslot

/-- Settles O15: memory and the record of stores are empty, no link is held, and Cause holds the lines alone. -/
theorem resetHasTheInvariant : Obligations.ResetHasTheInvariant := by
  unfold Obligations.ResetHasTheInvariant
  exact ⟨resetOn_inv, resetOn_inv _ _⟩

end Sys2Proof.Machine
end

section
/-! Rounding to nearest even (R253): every real number is rounded to exactly one pattern, large numbers to an infinity
and small ones to a zero. -/

namespace Sys2Proof.Machine

/-! ### The nearest integer, a tie to the even one -/

/-- Two integers within a half of one number are neighbours and it lies midway, so only one of them is even. -/
theorem isNearestEven_unique {q : ℝ} {m n : ℤ} (hm : isNearestEven q m) (hn : isNearestEven q n) : m = n := by
  wlog hle : m ≤ n generalizing m n
  · exact (this hn hm (le_of_not_ge hle)).symm
  obtain ⟨hm1, hm2⟩ := hm
  obtain ⟨hn1, hn2⟩ := hn
  by_contra hne
  have hstep : (m : ℝ) + 1 ≤ n := by exact_mod_cast lt_of_le_of_ne hle hne
  have hupper := (abs_le.1 hm1).2
  have hlower := (abs_le.1 hn1).1
  have hnext : n = m + 1 := by
    have hgap : (n : ℝ) ≤ m + 1 := by linarith
    exact le_antisymm (by exact_mod_cast hgap) (by exact_mod_cast hstep)
  have hmid : q = m + 1 / 2 := by linarith
  have hdist : q - m = 1 / 2 := by linarith
  have hdist' : q - n = -(1 / 2) := by
    rw [hnext]
    push_cast
    linarith
  have hevenm : Even m := hm2 (by rw [hdist, abs_of_pos (by norm_num)])
  have hevenn : Even n := hn2 (by rw [hdist', abs_neg, abs_of_pos (by norm_num)])
  rw [hnext] at hevenn
  exact Int.even_add_one.1 hevenn hevenm

/-- The integer is the floor or the one above it, by the part above the floor. -/
theorem exists_isNearestEven (q : ℝ) : ∃ m : ℤ, isNearestEven q m := by
  have hlow := Int.floor_le q
  have hhigh := Int.lt_floor_add_one q
  have hself : |q - ⌊q⌋| = q - ⌊q⌋ := abs_of_nonneg (by linarith)
  have hnext : |q - ((⌊q⌋ + 1 : ℤ) : ℝ)| = ⌊q⌋ + 1 - q := by
    push_cast
    rw [abs_of_nonpos (by linarith)]
    ring
  obtain hlt | heq | hgt := lt_trichotomy (q - ⌊q⌋) (1 / 2)
  · exact ⟨⌊q⌋, by rw [hself]; exact hlt.le, fun htie => absurd (hself ▸ htie) hlt.ne⟩
  · by_cases heven : Even ⌊q⌋
    · exact ⟨⌊q⌋, by rw [hself, heq], fun _ => heven⟩
    · exact ⟨⌊q⌋ + 1, by rw [hnext]; linarith, fun _ => Int.even_add_one.2 heven⟩
  · refine ⟨⌊q⌋ + 1, by rw [hnext]; linarith, fun htie => ?_⟩
    rw [hnext] at htie
    linarith

/-- A number that is not negative is rounded to a natural number. -/
theorem exists_isNearestEven_natCast {q : ℝ} (hq : 0 ≤ q) : ∃ m : Nat, isNearestEven q m := by
  obtain ⟨m, hm⟩ := exists_isNearestEven q
  have hnonneg : 0 ≤ m := by
    have hlower := (abs_le.1 hm.1).2
    have hgt : (-1 : ℝ) < m := by linarith
    have hgt' : -1 < m := by exact_mod_cast hgt
    omega
  lift m to Nat using hnonneg
  exact ⟨m, hm⟩

/-! ### One pattern -/

theorem exists_isRoundedPattern {fmt : FpFormat} {e : ℤ} (he : emin fmt ≤ e) (neg : Bool) (m : Nat) :
    ∃ w, isRoundedPattern fmt neg m e w := ⟨_, roundFinish_spec he⟩

theorem isRoundedPattern_unique {fmt : FpFormat} {neg : Bool} {m : Nat} {e : ℤ} {w w' : Nat}
    (h : isRoundedPattern fmt neg m e w) (h' : isRoundedPattern fmt neg m e w') : w = w' := by
  unfold isRoundedPattern at h h'
  split at h
  case isTrue hinf =>
    rw [if_pos hinf] at h'
    rw [h, h']
  case isFalse hfinite =>
    rw [if_neg hfinite] at h'
    split at h
    case isTrue hsmall =>
      rw [if_pos hsmall] at h'
      rw [h, h']
    case isFalse hlarge =>
      rw [if_neg hlarge] at h'
      obtain ⟨f, hf, rfl⟩ := h
      obtain ⟨f', hf', rfl⟩ := h'
      obtain rfl : f = f' := by omega
      rfl

theorem isRoundedPattern_inf {fmt : FpFormat} {neg : Bool} {m : Nat} {e : ℤ} {w : Nat} (he : (bias fmt : ℤ) < e)
    (h : isRoundedPattern fmt neg m e w) : w = fpPack fmt neg (maxExp fmt) 0 := by
  rwa [isRoundedPattern, if_pos he] at h

theorem isRoundedPattern_zero {fmt : FpFormat} {neg : Bool} {e : ℤ} {w : Nat} (he : e ≤ bias fmt)
    (h : isRoundedPattern fmt neg 0 e w) : w = fpPack fmt neg 0 0 := by
  rwa [isRoundedPattern, if_neg (not_lt.2 he), if_pos (by positivity)] at h

/-- The last step of R253: a carry out of the mantissa goes into the next binade. -/
def isCarriedPattern (fmt : FpFormat) (neg : Bool) (m : Nat) (e : ℤ) (w : Nat) : Prop :=
  (m = 2 ^ (fracBits fmt + 1) → isRoundedPattern fmt neg (2 ^ fracBits fmt) (e + 1) w) ∧
  (m ≠ 2 ^ (fracBits fmt + 1) → isRoundedPattern fmt neg m e w)

theorem exists_isCarriedPattern {fmt : FpFormat} {e : ℤ} (he : emin fmt ≤ e) (neg : Bool) (m : Nat) :
    ∃ w, isCarriedPattern fmt neg m e w := by
  by_cases hcarry : m = 2 ^ (fracBits fmt + 1)
  · obtain ⟨w, hw⟩ := exists_isRoundedPattern (by omega : emin fmt ≤ e + 1) neg (2 ^ fracBits fmt)
    exact ⟨w, fun _ => hw, fun hne => absurd hcarry hne⟩
  · obtain ⟨w, hw⟩ := exists_isRoundedPattern he neg m
    exact ⟨w, fun heq => absurd heq hcarry, fun _ => hw⟩

theorem isCarriedPattern_unique {fmt : FpFormat} {neg : Bool} {m : Nat} {e : ℤ} {w w' : Nat}
    (h : isCarriedPattern fmt neg m e w) (h' : isCarriedPattern fmt neg m e w') : w = w' := by
  by_cases hcarry : m = 2 ^ (fracBits fmt + 1)
  · exact isRoundedPattern_unique (h.1 hcarry) (h'.1 hcarry)
  · exact isRoundedPattern_unique (h.2 hcarry) (h'.2 hcarry)

/-- The exponent of R253. -/
noncomputable def roundingExponent (fmt : FpFormat) (v : ℝ) : ℤ := max (Int.log 2 |v|) (emin fmt)

theorem rounds_zero_iff {fmt : FpFormat} {zs : Bool} {w : Nat} : rounds fmt 0 zs w ↔ w = fpPack fmt zs 0 0 :=
  ⟨fun h => h.1 rfl, fun h => ⟨fun _ => h, fun hne => absurd rfl hne⟩⟩

/-- The rounding of a number that is not zero, with its exponent written out (R253). -/
theorem rounds_iff {fmt : FpFormat} {v : ℝ} {zs : Bool} {w : Nat} (hv : v ≠ 0) :
    rounds fmt v zs w ↔ ∃ m : Nat, isNearestEven (|v| / (2 : ℝ) ^ (roundingExponent fmt v - fracBits fmt)) m ∧
      isCarriedPattern fmt (decide (v < 0)) m (roundingExponent fmt v) w := by
  constructor
  · rintro ⟨-, h⟩
    obtain ⟨e, m, rfl, hm, hpattern⟩ := h hv
    exact ⟨m, hm, hpattern⟩
  · rintro ⟨m, hm, hpattern⟩
    exact ⟨fun hzero => absurd hzero hv, fun _ => ⟨_, m, rfl, hm, hpattern⟩⟩

theorem existsUnique_rounds (fmt : FpFormat) (v : ℝ) (zs : Bool) : ∃! w, rounds fmt v zs w := by
  by_cases hv : v = 0
  · simp only [hv, rounds_zero_iff, existsUnique_eq]
  · obtain ⟨m, hm⟩ := exists_isNearestEven_natCast
      (by positivity : 0 ≤ |v| / (2 : ℝ) ^ (roundingExponent fmt v - fracBits fmt))
    obtain ⟨w, hw⟩ := exists_isCarriedPattern (le_max_right _ _ : emin fmt ≤ roundingExponent fmt v) (decide (v < 0)) m
    refine ⟨w, (rounds_iff hv).2 ⟨m, hm, hw⟩, fun w' hrounds => ?_⟩
    obtain ⟨m', hm', hw'⟩ := (rounds_iff hv).1 hrounds
    obtain rfl : m' = m := by exact_mod_cast isNearestEven_unique hm' hm
    exact isCarriedPattern_unique hw' hw

/-! ### Overflow and underflow -/

/-- Past the last binade there is no number, with or without a carry. -/
theorem isCarriedPattern_inf {fmt : FpFormat} {neg : Bool} {m : Nat} {e : ℤ} {w : Nat}
    (he : (bias fmt : ℤ) < e ∨ e = bias fmt ∧ m = 2 ^ (fracBits fmt + 1)) (h : isCarriedPattern fmt neg m e w) :
    w = fpPack fmt neg (maxExp fmt) 0 := by
  by_cases hcarry : m = 2 ^ (fracBits fmt + 1)
  · exact isRoundedPattern_inf (by omega) (h.1 hcarry)
  · exact isRoundedPattern_inf (by omega) (h.2 hcarry)

/-- A number midway between an odd and an even integer, or above, is not rounded to the odd one or below. -/
theorem le_of_isNearestEven {q : ℝ} {m n : ℤ} (hn : Even n) (hq : (n : ℝ) - 1 / 2 ≤ q) (h : isNearestEven q m) :
    n ≤ m := by
  obtain ⟨hdist, htie⟩ := h
  by_contra hlt
  have hupper := (abs_le.1 hdist).2
  have hle : (m : ℝ) + 1 ≤ n := by exact_mod_cast not_le.1 hlt
  have heq : n = m + 1 := by
    have hge : (n : ℝ) ≤ m + 1 := by linarith
    exact le_antisymm (by exact_mod_cast hge) (by exact_mod_cast hle)
  have hmid : q - m = 1 / 2 := by
    rw [heq] at hq
    push_cast at hq
    linarith
  have heven : Even m := htie (by rw [hmid, abs_of_pos (by norm_num)])
  rw [heq] at hn
  exact Int.even_add_one.1 hn heven

theorem emin_le_bias (fmt : FpFormat) : emin fmt ≤ bias fmt := by cases fmt <;> decide

/-- The largest number of a format and half a unit, scaled to its binade, is midway to the carry. -/
theorem overflow_bound (fmt : FpFormat) :
    (2 - (2 : ℝ) ^ (-(fracBits fmt : ℤ) - 1)) * (2 : ℝ) ^ (bias fmt : ℤ) / (2 : ℝ) ^ ((bias fmt : ℤ) - fracBits fmt) =
      ((2 ^ (fracBits fmt + 1) : Nat) : ℤ) - 1 / 2 := by
  rw [zpow_sub₀ (by norm_num), zpow_sub₀ (by norm_num), zpow_neg, zpow_natCast, zpow_natCast, zpow_one]
  push_cast
  field_simp
  ring

theorem rounds_overflow {fmt : FpFormat} {v : ℝ} {zs : Bool} {w : Nat} (h : rounds fmt v zs w)
    (hlarge : (2 - (2 : ℝ) ^ (-(fracBits fmt : ℤ) - 1)) * (2 : ℝ) ^ (bias fmt : ℤ) ≤ |v|) :
    w = fpPack fmt (decide (v < 0)) (maxExp fmt) 0 := by
  have hhalf : (2 : ℝ) ^ (-(fracBits fmt : ℤ) - 1) ≤ 1 := zpow_le_one_of_nonpos₀ (by norm_num) (by omega)
  have hbinade : (2 : ℝ) ^ (bias fmt : ℤ) ≤ |v| := by
    refine le_trans ?_ hlarge
    exact le_mul_of_one_le_left (by positivity) (by linarith)
  have hpos : 0 < |v| := lt_of_lt_of_le (by positivity) hbinade
  have hv : v ≠ 0 := abs_pos.1 hpos
  have hlog : (bias fmt : ℤ) ≤ Int.log 2 |v| :=
    (Int.zpow_le_iff_le_log (b := 2) (by norm_num) hpos).1 (by exact_mod_cast hbinade)
  obtain ⟨m, hm, hpattern⟩ := (rounds_iff hv).1 h
  refine isCarriedPattern_inf ?_ hpattern
  have he : (bias fmt : ℤ) ≤ roundingExponent fmt v := hlog.trans (le_max_left _ _)
  refine he.lt_or_eq.imp id fun heq => ⟨heq.symm, le_antisymm (mantissa_le (le_max_left _ _) hv hm) ?_⟩
  rw [← heq] at hm
  have hbound :
      (((2 ^ (fracBits fmt + 1) : Nat) : ℤ) : ℝ) - 1 / 2 ≤ |v| / (2 : ℝ) ^ ((bias fmt : ℤ) - fracBits fmt) := by
    rw [← overflow_bound]
    gcongr
  have heven : Even ((2 ^ (fracBits fmt + 1) : Nat) : ℤ) := by
    rw [pow_succ]
    simp
  exact_mod_cast le_of_isNearestEven heven hbound hm

theorem rounds_underflow {fmt : FpFormat} {v : ℝ} {zs : Bool} {w : Nat} (h : rounds fmt v zs w) (hv : v ≠ 0)
    (hsmall : |v| < (2 : ℝ) ^ (emin fmt - fracBits fmt - 1)) : w = fpPack fmt (decide (v < 0)) 0 0 := by
  have hpos : 0 < |v| := abs_pos.2 hv
  have hlog : Int.log 2 |v| < emin fmt - fracBits fmt - 1 :=
    (Int.lt_zpow_iff_log_lt (b := 2) (by norm_num) hpos).1 (by exact_mod_cast hsmall)
  have he : roundingExponent fmt v = emin fmt := max_eq_right (by omega)
  obtain ⟨m, hm, hpattern⟩ := (rounds_iff hv).1 h
  rw [he] at hm hpattern
  have hhalf : |v| / (2 : ℝ) ^ (emin fmt - fracBits fmt) < 1 / 2 := by
    rw [div_lt_iff₀ (by positivity)]
    rwa [zpow_sub_one₀ (by norm_num), ← div_eq_mul_inv, div_eq_inv_mul, ← one_div] at hsmall
  have hzero : isNearestEven (|v| / (2 : ℝ) ^ (emin fmt - fracBits fmt)) (0 : ℤ) := by
    have habs : |(|v| / (2 : ℝ) ^ (emin fmt - fracBits fmt)) - ((0 : ℤ) : ℝ)| < 1 / 2 := by
      rwa [Int.cast_zero, sub_zero, abs_of_nonneg (by positivity)]
    exact ⟨habs.le, fun htie => absurd htie habs.ne⟩
  obtain rfl : m = 0 := by exact_mod_cast isNearestEven_unique hm hzero
  exact isRoundedPattern_zero (emin_le_bias fmt) (hpattern.2 (by positivity))

/-- Settles O49: the machine's two roundings are those of Laws/Fp; the exponent and the nearest even integer of a number
are unique, and they make one pattern. -/
theorem roundingGivesOnePattern : Obligations.RoundingGivesOnePattern := by
  unfold Obligations.RoundingGivesOnePattern
  exact ⟨fun fmt m e zs => roundScaled_rounds, fun fmt neg n d zs hn hd => roundMagnitude_rounds hn hd,
    fun fmt v zs => ⟨existsUnique_rounds fmt v zs,
      fun w h => ⟨rounds_overflow h, rounds_underflow h⟩⟩⟩

end Sys2Proof.Machine
end
